-- ==== Sys2Proof/Word.lean ====
section
/-! DEFINITION. The bit-vector types of ChipEmulator CORE (spec 00_scope.md R5, R7, R8; 10_state.md R20).
All values are unsigned (R8); arithmetic on these types wraps modulo 2^8 or 2^16, as R133 says. -/

namespace Sys2Proof

/-- A memory byte, a general register, a timer (R5: 8 bits). -/
abbrev Byte := BitVec 8

/-- An instruction word, `I`, `PC`, a stack entry (R5: 16 bits). -/
abbrev Word := BitVec 16

/-- A 4-bit instruction field: `G`, `X`, `Y`, `N` (R72). -/
abbrev Nibble := BitVec 4

/-- The 12-bit field `NNN` (R72). -/
abbrev Addr := BitVec 12

/-- A register number, 0..15, as the `X` and `Y` fields name it (R21, R74). -/
abbrev Reg := BitVec 4

/-- A key number, 0..15: a 4-bit quantity (R31, R166, R188). -/
abbrev Key := BitVec 4

end Sys2Proof
end

