-- ==== Sys2Proof/Syntax.lean ====
section
/-! DEFINITION. The 34 instructions of ChipEmulator CORE, one constructor per row of spec/opcode_table.json, in the
table's order (spec 30_encoding.md R76). A field the word holds and the instruction ignores (`Y` of SHR and SHL,
the low nibble of the register forms of SE and SNE) is carried, so that no bit of a word is lost (R78, R83). -/

namespace Sys2Proof

inductive Instr where
  /-- `00E0` CLS: clear the display (R150). -/
  | cls
  /-- `00EE` RET: return from subroutine (R100). -/
  | ret
  /-- `1NNN` JP NNN: jump (R101). -/
  | jp (nnn : Addr)
  /-- `2NNN` CALL NNN: call subroutine (R102). -/
  | call (nnn : Addr)
  /-- `3XNN` SE Vx, NN: skip if equal, immediate (R103). -/
  | seImm (x : Reg) (nn : Byte)
  /-- `4XNN` SNE Vx, NN: skip if not equal, immediate (R104). -/
  | sneImm (x : Reg) (nn : Byte)
  /-- `5XY0` SE Vx, Vy: skip if registers equal (R105); the low nibble `n` is ignored (R78). -/
  | seReg (x y : Reg) (n : Nibble)
  /-- `6XNN` LD Vx, NN: load immediate (R120). -/
  | ldImm (x : Reg) (nn : Byte)
  /-- `7XNN` ADD Vx, NN: add immediate, no flag (R121). -/
  | addImm (x : Reg) (nn : Byte)
  /-- `8XY0` LD Vx, Vy: copy register (R122). -/
  | ldReg (x y : Reg)
  /-- `8XY1` OR Vx, Vy (R123). -/
  | orReg (x y : Reg)
  /-- `8XY2` AND Vx, Vy (R124). -/
  | andReg (x y : Reg)
  /-- `8XY3` XOR Vx, Vy (R125). -/
  | xorReg (x y : Reg)
  /-- `8XY4` ADD Vx, Vy: add with carry-out (R126). -/
  | addReg (x y : Reg)
  /-- `8XY5` SUB Vx, Vy (R127). -/
  | subReg (x y : Reg)
  /-- `8XY6` SHR Vx (R128); the field `y` is ignored. -/
  | shr (x y : Reg)
  /-- `8XY7` SUBN Vx, Vy (R129). -/
  | subnReg (x y : Reg)
  /-- `8XYE` SHL Vx (R130); the field `y` is ignored. -/
  | shl (x y : Reg)
  /-- `9XY0` SNE Vx, Vy: skip if registers differ (R106); the low nibble `n` is ignored (R78). -/
  | sneReg (x y : Reg) (n : Nibble)
  /-- `ANNN` LD I, NNN (R140). -/
  | ldI (nnn : Addr)
  /-- `BNNN` JP V0, NNN (R107). -/
  | jpV0 (nnn : Addr)
  /-- `CXNN` RND Vx, NN (R131). -/
  | rnd (x : Reg) (nn : Byte)
  /-- `DXYN` DRW Vx, Vy, N (R151). -/
  | drw (x y : Reg) (n : Nibble)
  /-- `EX9E` SKP Vx: skip if key pressed (R160). -/
  | skp (x : Reg)
  /-- `EXA1` SKNP Vx: skip if key not pressed (R161). -/
  | sknp (x : Reg)
  /-- `FX07` LD Vx, DT (R163). -/
  | ldFromDt (x : Reg)
  /-- `FX0A` LD Vx, K: wait for a key (R162). -/
  | ldKey (x : Reg)
  /-- `FX15` LD DT, Vx (R164). -/
  | ldDt (x : Reg)
  /-- `FX18` LD ST, Vx (R165). -/
  | ldSt (x : Reg)
  /-- `FX1E` ADD I, Vx (R141). -/
  | addI (x : Reg)
  /-- `FX29` LD F, Vx: point at font glyph (R142). -/
  | ldF (x : Reg)
  /-- `FX33` LD B, Vx: store decimal digits (R143). -/
  | ldB (x : Reg)
  /-- `FX55` LD [I], Vx: store registers V[0..X] (R144). -/
  | stRegs (x : Reg)
  /-- `FX65` LD Vx, [I]: load registers V[0..X] (R145). -/
  | ldRegs (x : Reg)
deriving DecidableEq, Repr

end Sys2Proof
end

