-- ==== Sys2Proof/WellFormed.lean ====
section
/-! DEFINITION. Which terms of `Instr` are the form an assembler emits. Every operand has exactly the width of its
field, so no operand can be out of range; the one thing a term can get wrong is a field the spec ignores: an
assembler emits 0 there (spec 30_encoding.md R78, R86). A term with another value there is an alias: the machine
decodes and executes it as the canonical form (R78, R83), and nothing is refused for it. -/

namespace Sys2Proof

/-- The canonical form of an instruction: the ignored field is 0 (R78 for SE and SNE, R86 for SHR and SHL). -/
def Instr.wellFormed : Instr → Bool
  | .seReg _ _ n => n == 0
  | .sneReg _ _ n => n == 0
  | .shr _ y => y == 0
  | .shl _ y => y == 0
  | .cls | .ret | .jp _ | .call _ | .seImm _ _ | .sneImm _ _ | .ldImm _ _ | .addImm _ _ | .ldReg _ _
  | .orReg _ _ | .andReg _ _ | .xorReg _ _ | .addReg _ _ | .subReg _ _ | .subnReg _ _ | .ldI _ | .jpV0 _
  | .rnd _ _ | .drw _ _ _ | .skp _ | .sknp _ | .ldFromDt _ | .ldKey _ | .ldDt _ | .ldSt _ | .addI _
  | .ldF _ | .ldB _ | .stRegs _ | .ldRegs _ => true

/-- The canonical form an instruction is an alias of: itself, with the ignored field 0 (R78, R83). -/
def Instr.canonical : Instr → Instr
  | .seReg x y _ => .seReg x y 0
  | .sneReg x y _ => .sneReg x y 0
  | .shr x _ => .shr x 0
  | .shl x _ => .shl x 0
  | .cls => .cls
  | .ret => .ret
  | .jp nnn => .jp nnn
  | .call nnn => .call nnn
  | .seImm x nn => .seImm x nn
  | .sneImm x nn => .sneImm x nn
  | .ldImm x nn => .ldImm x nn
  | .addImm x nn => .addImm x nn
  | .ldReg x y => .ldReg x y
  | .orReg x y => .orReg x y
  | .andReg x y => .andReg x y
  | .xorReg x y => .xorReg x y
  | .addReg x y => .addReg x y
  | .subReg x y => .subReg x y
  | .subnReg x y => .subnReg x y
  | .ldI nnn => .ldI nnn
  | .jpV0 nnn => .jpV0 nnn
  | .rnd x nn => .rnd x nn
  | .drw x y n => .drw x y n
  | .skp x => .skp x
  | .sknp x => .sknp x
  | .ldFromDt x => .ldFromDt x
  | .ldKey x => .ldKey x
  | .ldDt x => .ldDt x
  | .ldSt x => .ldSt x
  | .addI x => .addI x
  | .ldF x => .ldF x
  | .ldB x => .ldB x
  | .stRegs x => .stRegs x
  | .ldRegs x => .ldRegs x

end Sys2Proof
end

