-- ==== Sys2Proof/Decode.lean ====
section
/-! DEFINITION. Bytes to words, words to instructions and back (spec 20_memory.md R56, R57; 30_encoding.md R71 to
R88). Decoding is total: a word that matches no row of the opcode map is rejected under the name of its group, and
the step executes it as the no-op of 40_step_cycle.md R96. -/

namespace Sys2Proof

/-- Why bytes decode to no instruction. The first four are the unknown words of R82; a step never meets the fifth,
since it always fetches two bytes (R92). -/
inductive DecodeError where
  /-- Group 0, and neither 0x00E0 nor 0x00EE (R77). -/
  | unknownGroup0
  /-- Group 8 with `N` in 8..D or F (R79). -/
  | unknownGroup8
  /-- Group E with `NN` neither 0x9E nor 0xA1 (R80). -/
  | unknownGroupE
  /-- Group F with `NN` none of the nine values (R81). -/
  | unknownGroupF
  /-- Fewer than two bytes: an instruction is exactly 16 bits (R71). -/
  | truncated
deriving DecidableEq, Repr

/-- `{hi, lo}`: `high<<8 | low`, the byte at the lower address in bits 15:8 (R56, R57). -/
def wordOfBytes (hi lo : Byte) : Word := hi.setWidth 16 <<< 8 ||| lo.setWidth 16

/-- Bits 15:8 of a word: the byte at its lower address (R57). -/
def highByte (w : Word) : Byte := w.extractLsb' 8 8

/-- Bits 7:0 of a word: the byte at its higher address (R57). -/
def lowByte (w : Word) : Byte := w.extractLsb' 0 8

/-- `G`, bits 15:12 (R72). -/
def fieldG (op : Word) : Nibble := op.extractLsb' 12 4
/-- `X`, bits 11:8 (R72). -/
def fieldX (op : Word) : Nibble := op.extractLsb' 8 4
/-- `Y`, bits 7:4 (R72). -/
def fieldY (op : Word) : Nibble := op.extractLsb' 4 4
/-- `N`, bits 3:0 (R72). -/
def fieldN (op : Word) : Nibble := op.extractLsb' 0 4
/-- `NN`, bits 7:0 (R72). -/
def fieldNN (op : Word) : Byte := op.extractLsb' 0 8
/-- `NNN`, bits 11:0 (R72). -/
def fieldNNN (op : Word) : Addr := op.extractLsb' 0 12

/-- Group 0 is decoded on the whole word (R77). -/
def decodeGroup0 (op : Word) : Except DecodeError Instr :=
  if op = 0x00E0 then .ok .cls
  else if op = 0x00EE then .ok .ret
  else .error .unknownGroup0

/-- Group 8 is decoded by `N` (R79). -/
def decodeGroup8 (x y : Reg) (n : Nibble) : Except DecodeError Instr :=
  match n.toNat with
  | 0x0 => .ok (.ldReg x y)
  | 0x1 => .ok (.orReg x y)
  | 0x2 => .ok (.andReg x y)
  | 0x3 => .ok (.xorReg x y)
  | 0x4 => .ok (.addReg x y)
  | 0x5 => .ok (.subReg x y)
  | 0x6 => .ok (.shr x y)
  | 0x7 => .ok (.subnReg x y)
  | 0xE => .ok (.shl x y)
  | _ => .error .unknownGroup8

/-- Group E is decoded by `NN` (R80). -/
def decodeGroupE (x : Reg) (nn : Byte) : Except DecodeError Instr :=
  if nn = 0x9E then .ok (.skp x)
  else if nn = 0xA1 then .ok (.sknp x)
  else .error .unknownGroupE

/-- Group F is decoded by `NN` (R81). -/
def decodeGroupF (x : Reg) (nn : Byte) : Except DecodeError Instr :=
  if nn = 0x07 then .ok (.ldFromDt x)
  else if nn = 0x0A then .ok (.ldKey x)
  else if nn = 0x15 then .ok (.ldDt x)
  else if nn = 0x18 then .ok (.ldSt x)
  else if nn = 0x1E then .ok (.addI x)
  else if nn = 0x29 then .ok (.ldF x)
  else if nn = 0x33 then .ok (.ldB x)
  else if nn = 0x55 then .ok (.stRegs x)
  else if nn = 0x65 then .ok (.ldRegs x)
  else .error .unknownGroupF

/-- `Decode(op)`: one total function of the word, dispatching on the top nibble (R75, R88). The last case is
group F, the only value of `G` left. -/
def decode (op : Word) : Except DecodeError Instr :=
  match (fieldG op).toNat with
  | 0x0 => decodeGroup0 op
  | 0x1 => .ok (.jp (fieldNNN op))
  | 0x2 => .ok (.call (fieldNNN op))
  | 0x3 => .ok (.seImm (fieldX op) (fieldNN op))
  | 0x4 => .ok (.sneImm (fieldX op) (fieldNN op))
  | 0x5 => .ok (.seReg (fieldX op) (fieldY op) (fieldN op))
  | 0x6 => .ok (.ldImm (fieldX op) (fieldNN op))
  | 0x7 => .ok (.addImm (fieldX op) (fieldNN op))
  | 0x8 => decodeGroup8 (fieldX op) (fieldY op) (fieldN op)
  | 0x9 => .ok (.sneReg (fieldX op) (fieldY op) (fieldN op))
  | 0xA => .ok (.ldI (fieldNNN op))
  | 0xB => .ok (.jpV0 (fieldNNN op))
  | 0xC => .ok (.rnd (fieldX op) (fieldNN op))
  | 0xD => .ok (.drw (fieldX op) (fieldY op) (fieldN op))
  | 0xE => decodeGroupE (fieldX op) (fieldNN op)
  | _ => decodeGroupF (fieldX op) (fieldNN op)

/-- Decode the instruction at the head of a byte stream, high byte first (R57, R71), with the bytes that follow. -/
def decodeBytes : List Byte → Except DecodeError (Instr × List Byte)
  | hi :: lo :: rest =>
    match decode (wordOfBytes hi lo) with
    | .ok i => .ok (i, rest)
    | .error e => .error e
  | [_] => .error .truncated
  | [] => .error .truncated

/-- Format `NNN`: the group in bits 15:12, `NNN` in bits 11:0 (R73). -/
def wordNNN (g : Nibble) (nnn : Addr) : Word := g.setWidth 16 <<< 12 ||| nnn.setWidth 16

/-- Formats `XNN` and `X`: the group, `X` in bits 11:8, `NN` (an immediate or a function code) in bits 7:0 (R73). -/
def wordXNN (g : Nibble) (x : Reg) (nn : Byte) : Word :=
  g.setWidth 16 <<< 12 ||| x.setWidth 16 <<< 8 ||| nn.setWidth 16

/-- Formats `XY` and `XYN`: the group, `X`, `Y` in bits 7:4, `N` (a function code, a height or an ignored nibble) in
bits 3:0 (R73). -/
def wordXYN (g : Nibble) (x y : Reg) (n : Nibble) : Word :=
  g.setWidth 16 <<< 12 ||| x.setWidth 16 <<< 8 ||| y.setWidth 16 <<< 4 ||| n.setWidth 16

/-- The instruction word of an instruction, from the patterns of R76 and the layouts of R73. -/
def encode : Instr → Word
  | .cls => 0x00E0
  | .ret => 0x00EE
  | .jp nnn => wordNNN 0x1 nnn
  | .call nnn => wordNNN 0x2 nnn
  | .seImm x nn => wordXNN 0x3 x nn
  | .sneImm x nn => wordXNN 0x4 x nn
  | .seReg x y n => wordXYN 0x5 x y n
  | .ldImm x nn => wordXNN 0x6 x nn
  | .addImm x nn => wordXNN 0x7 x nn
  | .ldReg x y => wordXYN 0x8 x y 0x0
  | .orReg x y => wordXYN 0x8 x y 0x1
  | .andReg x y => wordXYN 0x8 x y 0x2
  | .xorReg x y => wordXYN 0x8 x y 0x3
  | .addReg x y => wordXYN 0x8 x y 0x4
  | .subReg x y => wordXYN 0x8 x y 0x5
  | .shr x y => wordXYN 0x8 x y 0x6
  | .subnReg x y => wordXYN 0x8 x y 0x7
  | .shl x y => wordXYN 0x8 x y 0xE
  | .sneReg x y n => wordXYN 0x9 x y n
  | .ldI nnn => wordNNN 0xA nnn
  | .jpV0 nnn => wordNNN 0xB nnn
  | .rnd x nn => wordXNN 0xC x nn
  | .drw x y n => wordXYN 0xD x y n
  | .skp x => wordXNN 0xE x 0x9E
  | .sknp x => wordXNN 0xE x 0xA1
  | .ldFromDt x => wordXNN 0xF x 0x07
  | .ldKey x => wordXNN 0xF x 0x0A
  | .ldDt x => wordXNN 0xF x 0x15
  | .ldSt x => wordXNN 0xF x 0x18
  | .addI x => wordXNN 0xF x 0x1E
  | .ldF x => wordXNN 0xF x 0x29
  | .ldB x => wordXNN 0xF x 0x33
  | .stRegs x => wordXNN 0xF x 0x55
  | .ldRegs x => wordXNN 0xF x 0x65

/-- The two bytes of an instruction as memory holds them, the high byte at the lower address (R57, R71). -/
def encodeBytes (i : Instr) : List Byte := [highByte (encode i), lowByte (encode i)]

/-- A row of the opcode map: the word `op` selects it iff `op AND mask = value` (R76). -/
structure OpcodeRow where
  mask : Word
  value : Word
deriving DecidableEq, Repr

/-- Whether a word selects a row (R76). -/
def OpcodeRow.selects (r : OpcodeRow) (op : Word) : Bool := op &&& r.mask == r.value

/-- The row of the opcode map an instruction belongs to: the mask and match columns of R76. -/
def Instr.row : Instr → OpcodeRow
  | .cls => ⟨0xFFFF, 0x00E0⟩
  | .ret => ⟨0xFFFF, 0x00EE⟩
  | .jp _ => ⟨0xF000, 0x1000⟩
  | .call _ => ⟨0xF000, 0x2000⟩
  | .seImm _ _ => ⟨0xF000, 0x3000⟩
  | .sneImm _ _ => ⟨0xF000, 0x4000⟩
  | .seReg _ _ _ => ⟨0xF000, 0x5000⟩
  | .ldImm _ _ => ⟨0xF000, 0x6000⟩
  | .addImm _ _ => ⟨0xF000, 0x7000⟩
  | .ldReg _ _ => ⟨0xF00F, 0x8000⟩
  | .orReg _ _ => ⟨0xF00F, 0x8001⟩
  | .andReg _ _ => ⟨0xF00F, 0x8002⟩
  | .xorReg _ _ => ⟨0xF00F, 0x8003⟩
  | .addReg _ _ => ⟨0xF00F, 0x8004⟩
  | .subReg _ _ => ⟨0xF00F, 0x8005⟩
  | .shr _ _ => ⟨0xF00F, 0x8006⟩
  | .subnReg _ _ => ⟨0xF00F, 0x8007⟩
  | .shl _ _ => ⟨0xF00F, 0x800E⟩
  | .sneReg _ _ _ => ⟨0xF000, 0x9000⟩
  | .ldI _ => ⟨0xF000, 0xA000⟩
  | .jpV0 _ => ⟨0xF000, 0xB000⟩
  | .rnd _ _ => ⟨0xF000, 0xC000⟩
  | .drw _ _ _ => ⟨0xF000, 0xD000⟩
  | .skp _ => ⟨0xF0FF, 0xE09E⟩
  | .sknp _ => ⟨0xF0FF, 0xE0A1⟩
  | .ldFromDt _ => ⟨0xF0FF, 0xF007⟩
  | .ldKey _ => ⟨0xF0FF, 0xF00A⟩
  | .ldDt _ => ⟨0xF0FF, 0xF015⟩
  | .ldSt _ => ⟨0xF0FF, 0xF018⟩
  | .addI _ => ⟨0xF0FF, 0xF01E⟩
  | .ldF _ => ⟨0xF0FF, 0xF029⟩
  | .ldB _ => ⟨0xF0FF, 0xF033⟩
  | .stRegs _ => ⟨0xF0FF, 0xF055⟩
  | .ldRegs _ => ⟨0xF0FF, 0xF065⟩

/-- The word whose bits are `w` below bit `nbits` and 0 above. Every instruction is one 16-bit word (R71). -/
def tableWord (nbits w : Nat) : Word := BitVec.ofNat 16 (w % 2 ^ nbits)

/-- What the decoder reads from the bytes of an opcode-table word, laid out high byte first (R57). -/
def decodeTableWord (nbits w : Nat) : Option Instr :=
  match decodeBytes [highByte (tableWord nbits w), lowByte (tableWord nbits w)] with
  | .ok (i, _) => some i
  | .error _ => none

end Sys2Proof
end

