-- ==== Sys2Proof/Config.lean ====
section
/-! DEFINITION. The fixed parameters of the core (spec 00_scope.md R5), the font table (10_state.md R37) and the
two free inputs of a step (00_scope.md R6: `rnd`, `tick`) as constants with no body. -/

namespace Sys2Proof.Config

/-- The highest address of `MEM`: 4096 bytes, addresses 0x000..0xFFF (R5, R50). -/
def memTop : Nat := 4095

/-- The default load offset and the reset value of `PC` (R5, R38). -/
def progBase : Nat := 0x200

/-- `STACK_DEPTH`: the most entries the call stack holds (R5, R26). -/
def stackDepth : Nat := 16

/-- The highest index of a framebuffer cell: 64 × 32 = 2048 cells (R5, R32). -/
def fbTop : Nat := 2047

/-- The 80 bytes of `FONT`, 16 glyphs of 5 bytes, digits 0 to F (R37). PRESUMED, log entry 1: the source gives no
byte of it; the spec's R37 supplies this table from general knowledge as the default of an open parameter. -/
def font : List Byte :=
  [0xF0, 0x90, 0x90, 0x90, 0xF0] ++ [0x20, 0x60, 0x20, 0x20, 0x70] ++
  [0xF0, 0x10, 0xF0, 0x80, 0xF0] ++ [0xF0, 0x10, 0xF0, 0x10, 0xF0] ++
  [0x90, 0x90, 0xF0, 0x10, 0x10] ++ [0xF0, 0x80, 0xF0, 0x10, 0xF0] ++
  [0xF0, 0x80, 0xF0, 0x90, 0xF0] ++ [0xF0, 0x10, 0x20, 0x40, 0x40] ++
  [0xF0, 0x90, 0xF0, 0x90, 0xF0] ++ [0xF0, 0x90, 0xF0, 0x10, 0xF0] ++
  [0xF0, 0x90, 0xF0, 0x90, 0x90] ++ [0xE0, 0x90, 0xE0, 0x90, 0xE0] ++
  [0xF0, 0x80, 0x80, 0x80, 0xF0] ++ [0xE0, 0x90, 0x90, 0x90, 0xE0] ++
  [0xF0, 0x80, 0xF0, 0x80, 0xF0] ++ [0xF0, 0x80, 0xF0, 0x80, 0x80]

/-- The byte `rnd` of a step whose host names none: a free value, one for each draw (R6, R131; log entry 2). It has
no body, so no statement can rest on a value of it. -/
opaque freeRnd : Nat → Byte

/-- The Boolean `tick` of a step whose host names none: a free value, one for each step (R6, R183; log entry 3). -/
opaque freeTick : Nat → Bool

end Sys2Proof.Config
end

