-- ==== Sys2Proof/Machine/State.lean ====
section
/-! DEFINITION. The architectural state of ChipEmulator CORE (spec 10_state.md R20), the outcome record of a step
(40_step_cycle.md R99), and the state after reset (70_reset_and_hazards.md R200, R201). -/

namespace Sys2Proof.Machine

/-- The two faults of the machine (R170). Both are precise and reported to the host in the outcome record of the
step (R99, R173): the step itself answers a next state, since its timer phase still runs (R90) and the machine goes
on accepting transactions (R180). No step answers `Host.Outcome.fault`. -/
inductive Fault where
  /-- Raised by `CALL` when the stack holds 16 entries (R102, R171). Safe: it is what the spec says. -/
  | stackOverflow
  /-- Raised by `RET` when the stack is empty (R100, R172). Safe: it is what the spec says. -/
  | stackUnderflow
deriving DecidableEq, Repr

/-- Why a step has no meaning. -/
inductive Refusal where
  /-- Raised by `exec` for an instruction not modelled yet; no arm of `exec` raises it. Safe: the model stops. -/
  | notModelled (mnemonic : String)
deriving DecidableEq, Repr

/-- The outcome record of a `Step` (R99): output only, cleared when a step begins. -/
structure StepRecord where
  /-- The fault the instruction raised, if any. -/
  fault : Option Fault
  /-- The instruction executed was an unknown opcode (R96). -/
  unknownOpcode : Bool
  /-- A memory access of the step, fetch included, was out of range (R55). -/
  memOob : Bool
  /-- The timer phase fired the one-shot beep (R185). -/
  beep : Bool
deriving DecidableEq, Repr

/-- The record every step starts from (R90). -/
def StepRecord.clear : StepRecord := ⟨none, false, false, false⟩

/-- What the host supplies for the coming `Step(tick, rnd)` (R90, R187); `none`: nothing is known of it, and the
step takes a free value (R6). -/
structure StepInputs where
  tick : Option Bool
  rnd : Option Byte
deriving DecidableEq, Repr

/-- Nothing supplied. -/
def StepInputs.free : StepInputs := ⟨none, none⟩

/-- `MEM` as the cells that differ from their reset contents, addresses strictly rising (R20, R33, R50). -/
abbrev Memory := List Host.Cell

/-- `FB`: 32 rows of 64 one-bit cells. Cell `idx = x + y*64` is bit `x` of row `y` (R32). -/
abbrev Framebuffer := Vector (BitVec 64) 32

structure State where
  /-- `V[0..15]` (R21, R22). -/
  v : Vector Byte 16
  /-- `I` (R23). -/
  i : Word
  /-- `PC` (R24). -/
  pc : Word
  /-- `STACK`, element 0 the oldest entry; `SP` is its length (R26). -/
  stack : List Word
  /-- `DT` (R28). -/
  dt : Byte
  /-- `ST` (R29). -/
  st : Byte
  /-- `WAIT` (R30). -/
  wait : Bool
  /-- `KEY[0..15]` (R31). -/
  keys : Vector Bool 16
  /-- `FB` (R32). -/
  fb : Framebuffer
  /-- `MEM` (R33). -/
  mem : Memory
  /-- The outcome record of the last step: the model's field, not the spec's state (R99; log entry 4). -/
  out : StepRecord
  /-- The inputs of the coming step: the model's field (R6; log entries 2 and 3). -/
  inputs : StepInputs
  /-- How many free `rnd` bytes have been drawn: the model's field (log entry 2). -/
  rndDraws : Nat
  /-- How many free `tick` values have been drawn: the model's field (log entry 3). -/
  tickDraws : Nat
deriving DecidableEq, Repr

/-- The machine right after `Reset` (R38, R200, R201): memory lists nothing, since an unlisted address reads as its
reset contents. -/
def State.reset : State where
  v := Vector.replicate 16 0
  i := 0
  pc := BitVec.ofNat 16 Config.progBase
  stack := []
  dt := 0
  st := 0
  wait := false
  keys := Vector.replicate 16 false
  fb := Vector.replicate 32 0
  mem := []
  out := StepRecord.clear
  inputs := StepInputs.free
  rndDraws := 0
  tickDraws := 0

end Sys2Proof.Machine
end

