-- ==== Sys2Proof/Machine/Ops.lean ====
section
/-! DEFINITION. The named operations over registers, stack, memory, framebuffer, keys, timers and the outcome
record; raising a fault (spec 60_exceptions.md R173) is one of them. There is no trap entry and no return from one
on this machine (R179, R180). -/

namespace Sys2Proof.Machine

/-! ## Plain writes of one field (00_scope.md R9) -/

/-- `PC <- w`. -/
def State.setPc (s : State) (w : Word) : State := { s with pc := w }

/-- `I <- w`. -/
def State.setI (s : State) (w : Word) : State := { s with i := w }

/-- `DT <- b`. -/
def State.setDt (s : State) (b : Byte) : State := { s with dt := b }

/-- `ST <- b`. -/
def State.setSt (s : State) (b : Byte) : State := { s with st := b }

/-- `WAIT <- w`. -/
def State.setWait (s : State) (w : Bool) : State := { s with wait := w }

/-- `FB <- fb`. -/
def State.setFb (s : State) (fb : Framebuffer) : State := { s with fb := fb }

/-- `MEM <- m`. -/
def State.setMem (s : State) (m : Memory) : State := { s with mem := m }

/-! ## General registers (10_state.md R21, R22) -/

/-- `V[r]`. -/
def State.reg (s : State) (r : Reg) : Byte := s.v[r.toNat]'r.isLt

/-- `V[r] <- b`. -/
def State.setReg (s : State) (r : Reg) (b : Byte) : State := { s with v := s.v.set r.toNat b r.isLt }

/-- The number of the flag register `V[F]` (R22). -/
def flagReg : Reg := 0xF

/-- A flag write stores 0x00 or 0x01, never any other value (R22). -/
def flagByte (f : Bool) : Byte := if f then 1 else 0

/-- `V[F] <- flag` (R22). -/
def State.setFlag (s : State) (f : Bool) : State := s.setReg flagReg (flagByte f)

/-- The write of a flag-setting instruction: the result to `V[X]` first, the flag to `V[F]` last (R132, R209). -/
def State.setResult (s : State) (x : Reg) (result : Byte) (flag : Bool) : State :=
  (s.setReg x result).setFlag flag

/-! ## The call stack (10_state.md R26) -/

/-- `SP`, the number of entries in `STACK`. -/
def State.sp (s : State) : Nat := s.stack.length

/-- Append an entry: it becomes the newest. -/
def State.push (s : State) (w : Word) : State := { s with stack := s.stack ++ [w] }

/-- The newest entry, if there is one. -/
def State.top (s : State) : Option Word := s.stack.getLast?

/-- Remove the newest entry. -/
def State.dropTop (s : State) : State := { s with stack := s.stack.dropLast }

/-! ## The outcome record: faults and diagnostics (40_step_cycle.md R97, R99; 60_exceptions.md R170 to R175) -/

/-- Raise a fault: the instruction phase writes nothing, `PC` goes back from `A + 2` to the address `A` of the
faulting instruction, and the outcome record carries the fault (R97, R173). -/
def State.raiseFault (s : State) (f : Fault) : State :=
  { s with pc := s.pc - 2, out := { s.out with fault := some f } }

/-- `warn UnknownOpcode` (R11, R174). -/
def State.warnUnknown (s : State) : State := { s with out := { s.out with unknownOpcode := true } }

/-- Some address of `a .. a + n - 1` is above 4095, computed without wrap (R55, R59, R60). -/
def oobIn (a n : Nat) : Bool := (List.range n).any fun k => decide (Config.memTop < a + k)

/-- `warn MemoryOutOfBounds` if an access to `n` bytes from address `a` leaves memory (R55, R175). -/
def State.noteAccess (s : State) (a n : Nat) : State :=
  { s with out := { s.out with memOob := s.out.memOob || oobIn a n } }

/-- The code of the `fault` field: `None` = 0, `StackOverflow` = 1, `StackUnderflow` = 2 (R99). -/
def StepRecord.faultCode (r : StepRecord) : Nat :=
  match r.fault with
  | none => 0
  | some .stackOverflow => 1
  | some .stackUnderflow => 2

/-! ## Memory (20_memory.md R50 to R60) -/

/-- What an address that `Memory` does not list reads as: its reset contents, the font table at 0..79 and 0
elsewhere (R201). -/
def unlistedByte (a : Nat) : Byte := Config.font.getD a 0

/-- The byte at an address. -/
def memGet : Memory → Nat → Byte
  | [], a => unlistedByte a
  | (b, w) :: m, a => if b = a then w else memGet m a

/-- `MEM[a] <- v`, keeping the canonical form: a cell that holds its reset contents is not listed. -/
def memSet : Memory → Nat → Byte → Memory
  | [], a, v => if v = unlistedByte a then [] else [(a, v)]
  | (b, w) :: m, a, v =>
    if a < b then (if v = unlistedByte a then (b, w) :: m else (a, v) :: (b, w) :: m)
    else if a = b then (if v = unlistedByte a then m else (a, v) :: m)
    else (b, w) :: memSet m a v

/-- The canonical form: addresses strictly rising above `lo`, each in 0..4095, no cell at its reset contents. -/
def memWfFrom : Nat → Memory → Bool
  | _, [] => true
  | lo, (a, v) :: m => decide (lo ≤ a) && decide (a ≤ Config.memTop) && decide (v ≠ unlistedByte a) && memWfFrom (a + 1) m

/-- The canonical form of memory. -/
def Memory.wf (m : Memory) : Bool := memWfFrom 0 m

/-- `MemRead(addr, 1)`: an address above 4095 reads 0 (R53). -/
def memRead (m : Memory) (a : Nat) : Byte := if a ≤ Config.memTop then memGet m a else 0

/-- `MemWrite(addr, 1, v)`: a write above 4095 is dropped (R54). -/
def memWrite (m : Memory) (a : Nat) (v : Byte) : Memory := if a ≤ Config.memTop then memSet m a v else m

/-- Byte writes at `a`, `a + 1`, … in ascending order, each bounds-checked on its own (R59). -/
def memWriteAll : Memory → Nat → List Byte → Memory
  | m, _, [] => m
  | m, a, b :: bs => memWriteAll (memWrite m a b) (a + 1) bs

/-- `MemRead(addr, 1)` in a state, without its diagnostic (R53). -/
def State.peek (s : State) (a : Nat) : Byte := memRead s.mem a

/-- `MemRead(addr, 2)`, big-endian, each byte bounds-checked on its own; `addr + 1` is not reduced (R56). -/
def State.peekWord (s : State) (a : Nat) : Word := wordOfBytes (s.peek a) (s.peek (a + 1))

/-- Store bytes from address `a` up, with the diagnostic of the ones that are out of range (R54, R55, R59). -/
def State.storeBytes (s : State) (a : Nat) (bs : List Byte) : State :=
  (s.noteAccess a bs.length).setMem (memWriteAll s.mem a bs)

/-- `V[0..n-1]` loaded from `a .. a + n - 1` of the memory of `src`, in ascending order (R145). -/
def loadRegsFrom (src : State) (a : Nat) : Nat → State → State
  | 0, t => t
  | n + 1, t => (loadRegsFrom src a n t).setReg (BitVec.ofNat 4 n) (src.peek (a + n))

/-! ## Fetch (40_step_cycle.md R92, R94) -/

/-- The word at `PC`, any `PC`, even or odd (R92). -/
def State.fetchWord (s : State) : Word := s.peekWord s.pc.toNat

/-- The diagnostic of the fetch, and `PC <- (PC + 2) mod 2^16` before dispatch (R92, R94). -/
def State.advance (s : State) : State := (s.noteAccess s.pc.toNat 2).setPc (s.pc + 2)

/-! ## The framebuffer (10_state.md R32, 20_memory.md R70) -/

/-- `FB[idx]`; `false` above 2047, where there is no cell. -/
def fbCell (fb : Framebuffer) (idx : Nat) : Bool :=
  if h : idx ≤ Config.fbTop then (fb[idx / 64]'(Nat.div_lt_of_lt_mul (Nat.lt_succ_of_le h))).getLsbD (idx % 64) else false

/-- Invert `FB[idx]`; nothing above 2047. -/
def fbFlip (fb : Framebuffer) (idx : Nat) : Framebuffer :=
  if h : idx ≤ Config.fbTop then
    have hy : idx / 64 < 32 := Nat.div_lt_of_lt_mul (Nat.lt_succ_of_le h)
    fb.set (idx / 64) (fb[idx / 64] ^^^ BitVec.twoPow 64 (idx % 64)) hy
  else fb

/-- The framebuffer with every cell 0 (R150). -/
def fbClear : Framebuffer := Vector.replicate 32 0

/-- `FB[idx]` of a state. -/
def State.cell (s : State) (idx : Nat) : Bool := fbCell s.fb idx

/-! ## The key latch (10_state.md R31) -/

/-- `KEY[k]`. -/
def State.key (s : State) (k : Key) : Bool := s.keys[k.toNat]'k.isLt

/-- `KEY[k] <- d`. -/
def State.setKey (s : State) (k : Key) (d : Bool) : State := { s with keys := s.keys.set k.toNat d k.isLt }

/-! ## The free inputs of a step (00_scope.md R6, 10_state.md R35) -/

/-- `rnd` of this step: what the host supplied, else a free value (R131; log entry 2). -/
def State.rndValue (s : State) : Byte :=
  match s.inputs.rnd with
  | some r => r
  | none => Config.freeRnd s.rndDraws

/-- `tick` of this step: what the host supplied, else a free value (R183; log entry 3). -/
def State.tickValue (s : State) : Bool :=
  match s.inputs.tick with
  | some t => t
  | none => Config.freeTick s.tickDraws

/-- A draw of `rnd`: the next one is a fresh value (R35). -/
def State.drawRnd (s : State) : State := { s with rndDraws := s.rndDraws + 1 }

/-! ## Timers (60_exceptions.md R183, R185) -/

/-- One timer's decrement: by 1 when it is non-zero and a tick is due, never below 0 (R28, R183). -/
def countDown (tick : Bool) (c : Byte) : Byte := if c = 0 then 0 else if tick then c - 1 else c

/-- `TimerPhase(tick)`: both timers, and `beep` exactly when `ST` goes from 1 to 0 (R183, R185). -/
def State.timerPhase (s : State) (tick : Bool) : State :=
  { s with
    dt := countDown tick s.dt
    st := countDown tick s.st
    out := { s.out with beep := if s.st = 1 then tick else false } }

/-- What a step begins with: an empty outcome record (R90). -/
def State.beginStep (s : State) : State := { s with out := StepRecord.clear }

/-- What a step ends with: its inputs are used up, and the next tick is a fresh value (R35). -/
def State.endStep (s : State) : State := { s with inputs := StepInputs.free, tickDraws := s.tickDraws + 1 }

/-! ## Placing an instruction where the next step fetches it -/

/-- `s` with a word stored at `PC` and no wait pending, so that the next step fetches and runs it. A `PC` whose two
bytes do not both lie in memory holds no stored word; the word is then placed at the load offset 0x200. -/
def State.placeWord (s : State) (w : Word) : State :=
  let a := if s.pc.toNat + 1 ≤ Config.memTop then s.pc.toNat else Config.progBase
  ((s.setMem (memWriteAll s.mem a [highByte w, lowByte w])).setPc (BitVec.ofNat 16 a)).setWait false

end Sys2Proof.Machine
end

