-- ==== Sys2Proof/Machine/Flags.lean ====
section
/-! DEFINITION. Every flag the machine computes, from the operand values before the instruction (spec 10_state.md
R40; 42_alu.md R132 to R134). The collision flag of `DRW` is the `collision` of `Drawing` (44_display.md R151). -/

namespace Sys2Proof.Machine

/-- `ADD`: carry out of 8 bits, `a + b > 255` (R126, R133). -/
def addFlag (a b : Byte) : Bool := decide (255 < a.toNat + b.toNat)

/-- `SUB`: 1 iff `a > b`, strictly; equal operands give 0 (R127, R134). `SUBN` is the same with the operands
exchanged (R129). -/
def subFlag (a b : Byte) : Bool := decide (b.toNat < a.toNat)

/-- `SHR`: the bit shifted out, bit 0 (R128). -/
def shrFlag (a : Byte) : Bool := a.getLsbD 0

/-- `SHL`: the bit shifted out, bit 7 (R130). -/
def shlFlag (a : Byte) : Bool := a.getLsbD 7

end Sys2Proof.Machine
end

