-- ==== Sys2Proof/Machine/Operands.lean ====
section
/-! DEFINITION. The operand forms: immediates taken from the word as they stand (spec 30_encoding.md R74), the
effective addresses based on `I` (43_index_memory.md R146), the register ranges, the key a register selects, the
skip (41_control_transfer.md R108) and the sprite's pixels (44_display.md R151, R152). -/

namespace Sys2Proof.Machine

/-- `zext_16(NNN)` (R74). -/
def zextAddr (nnn : Addr) : Word := nnn.setWidth 16

/-- `zext_16(v)` of a byte (R8). -/
def zextByte (b : Byte) : Word := b.setWidth 16

/-- `zext_8(k)` of a key number (R188). -/
def zextKey (k : Key) : Byte := k.setWidth 8

/-- The effective address `I + k`, a mathematical integer, not reduced (R60, R146). -/
def State.ea (s : State) (k : Nat) : Nat := s.i.toNat + k

/-- The bytes `V[0], …, V[x]`, the range `FX55` stores, inclusive of `x` (R144). -/
def State.regRange (s : State) (x : Reg) : List Byte :=
  (List.range (x.toNat + 1)).map fun k => s.reg (BitVec.ofNat 4 k)

/-- The key `V[x]` selects: its low four bits (R166). -/
def State.keyOf (s : State) (x : Reg) : Key := (s.reg x).extractLsb' 0 4

/-- The skip: `PC <- (PC + 2) mod 2^16` if the condition holds (R108). -/
def State.skipIf (s : State) (c : Bool) : State := s.setPc (if c then s.pc + 2 else s.pc)

/-- The decimal digits of a byte, hundreds, tens, ones, each a whole byte (R143). -/
def bcdDigits (v : Byte) : List Byte :=
  [BitVec.ofNat 8 (v.toNat / 100), BitVec.ofNat 8 (v.toNat / 10 % 10), BitVec.ofNat 8 (v.toNat % 10)]

/-- The index of the pixel at column `x`, row `y`, not reduced (R152). -/
def pixelIndex (x y : Nat) : Nat := x + y * 64

/-- A drawing in progress: the framebuffer and whether a pixel has collided (R151). -/
structure Drawing where
  fb : Framebuffer
  collision : Bool
deriving DecidableEq, Repr

/-- One sprite bit: dropped above index 2047, else XORed in; a 1 that meets a 1 collides, tested before the XOR
(R151, R152). -/
def drawPixel (idx : Nat) (bit : Bool) (d : Drawing) : Drawing :=
  if Config.fbTop < idx then d
  else ⟨if bit then fbFlip d.fb idx else d.fb, d.collision || (bit && fbCell d.fb idx)⟩

/-- The first `n` columns of a sprite row, leftmost first: column `col` is bit `7 - col` of the byte (R151). -/
def drawColumns (x y : Nat) (b : Byte) : Nat → Drawing → Drawing
  | 0, d => d
  | n + 1, d => drawPixel (pixelIndex (x + n) y) (b.getLsbD (7 - n)) (drawColumns x y b n d)

/-- The first `n` rows of the sprite at `I`, each a byte of eight columns (R151). -/
def State.drawRows (s : State) (x y : Nat) : Nat → Drawing → Drawing
  | 0, d => d
  | n + 1, d => drawColumns x (y + n) (s.peek (s.ea n)) 8 (s.drawRows x y n d)

end Sys2Proof.Machine
end

