-- ==== Sys2Proof/Machine/Alu.lean ====
section
/-! DEFINITION. Register loads, arithmetic, logic, shifts and the random byte (spec 42_alu.md). Operands are sampled
before any write; a flag is written last (R132). -/

namespace Sys2Proof.Machine

/-- `6XNN` LD Vx, NN (R120). -/
def execLdImm (x : Reg) (nn : Byte) (s : State) : Host.Outcome State Fault Refusal :=
  .next (s.setReg x nn)

/-- `7XNN` ADD Vx, NN (R121): no flag. -/
def execAddImm (x : Reg) (nn : Byte) (s : State) : Host.Outcome State Fault Refusal :=
  .next (s.setReg x (s.reg x + nn))

/-- `8XY0` LD Vx, Vy (R122). -/
def execLdReg (x y : Reg) (s : State) : Host.Outcome State Fault Refusal :=
  .next (s.setReg x (s.reg y))

/-- `8XY1` OR Vx, Vy (R123). -/
def execOrReg (x y : Reg) (s : State) : Host.Outcome State Fault Refusal :=
  .next (s.setReg x (s.reg x ||| s.reg y))

/-- `8XY2` AND Vx, Vy (R124). -/
def execAndReg (x y : Reg) (s : State) : Host.Outcome State Fault Refusal :=
  .next (s.setReg x (s.reg x &&& s.reg y))

/-- `8XY3` XOR Vx, Vy (R125). -/
def execXorReg (x y : Reg) (s : State) : Host.Outcome State Fault Refusal :=
  .next (s.setReg x (s.reg x ^^^ s.reg y))

/-- `8XY4` ADD Vx, Vy (R126). -/
def execAddReg (x y : Reg) (s : State) : Host.Outcome State Fault Refusal :=
  .next (s.setResult x (s.reg x + s.reg y) (addFlag (s.reg x) (s.reg y)))

/-- `8XY5` SUB Vx, Vy (R127). -/
def execSubReg (x y : Reg) (s : State) : Host.Outcome State Fault Refusal :=
  .next (s.setResult x (s.reg x - s.reg y) (subFlag (s.reg x) (s.reg y)))

/-- `8XY6` SHR Vx (R128): `V[Y]` is neither read nor written. -/
def execShr (x _y : Reg) (s : State) : Host.Outcome State Fault Refusal :=
  .next (s.setResult x (s.reg x >>> 1) (shrFlag (s.reg x)))

/-- `8XY7` SUBN Vx, Vy (R129). -/
def execSubnReg (x y : Reg) (s : State) : Host.Outcome State Fault Refusal :=
  .next (s.setResult x (s.reg y - s.reg x) (subFlag (s.reg y) (s.reg x)))

/-- `8XYE` SHL Vx (R130): `V[Y]` is neither read nor written. -/
def execShl (x _y : Reg) (s : State) : Host.Outcome State Fault Refusal :=
  .next (s.setResult x (s.reg x <<< 1) (shlFlag (s.reg x)))

/-- `CXNN` RND Vx, NN (R131): `rnd AND NN`, with `rnd` the step's free input. -/
def execRnd (x : Reg) (nn : Byte) (s : State) : Host.Outcome State Fault Refusal :=
  .next (s.setReg x (s.rndValue &&& nn)).drawRnd

end Sys2Proof.Machine
end

