-- ==== Sys2Proof/Machine/ControlTransfer.lean ====
section
/-! DEFINITION. Control transfer (spec 41_control_transfer.md). In every meaning `PC` already holds `A + 2`, where
`A` is the address of the instruction (40_step_cycle.md R94). -/

namespace Sys2Proof.Machine

/-- `00EE` RET (R100): pop the newest entry into `PC`, or `StackUnderflow` on an empty stack. -/
def execRet (s : State) : Host.Outcome State Fault Refusal :=
  match s.top with
  | none => .next (s.raiseFault .stackUnderflow)
  | some w => .next (s.dropTop.setPc w)

/-- `1NNN` JP NNN (R101). -/
def execJp (nnn : Addr) (s : State) : Host.Outcome State Fault Refusal :=
  .next (s.setPc (zextAddr nnn))

/-- `2NNN` CALL NNN (R102): push the return address, or `StackOverflow` on a full stack. -/
def execCall (nnn : Addr) (s : State) : Host.Outcome State Fault Refusal :=
  if Config.stackDepth ≤ s.sp then .next (s.raiseFault .stackOverflow)
  else .next ((s.push s.pc).setPc (zextAddr nnn))

/-- `3XNN` SE Vx, NN (R103). -/
def execSeImm (x : Reg) (nn : Byte) (s : State) : Host.Outcome State Fault Refusal :=
  .next (s.skipIf (s.reg x == nn))

/-- `4XNN` SNE Vx, NN (R104). -/
def execSneImm (x : Reg) (nn : Byte) (s : State) : Host.Outcome State Fault Refusal :=
  .next (s.skipIf (s.reg x != nn))

/-- `5XY0` SE Vx, Vy (R105); the low nibble is not examined (R78). -/
def execSeReg (x y : Reg) (_n : Nibble) (s : State) : Host.Outcome State Fault Refusal :=
  .next (s.skipIf (s.reg x == s.reg y))

/-- `9XY0` SNE Vx, Vy (R106); the low nibble is not examined (R78). -/
def execSneReg (x y : Reg) (_n : Nibble) (s : State) : Host.Outcome State Fault Refusal :=
  .next (s.skipIf (s.reg x != s.reg y))

/-- `BNNN` JP V0, NNN (R107): the sum is not reduced to 12 bits. -/
def execJpV0 (nnn : Addr) (s : State) : Host.Outcome State Fault Refusal :=
  .next (s.setPc (zextByte (s.reg 0) + zextAddr nnn))

end Sys2Proof.Machine
end

