-- ==== Sys2Proof/Machine/Display.lean ====
section
/-! DEFINITION. The display instructions (spec 44_display.md). -/

namespace Sys2Proof.Machine

/-- `00E0` CLS (R150). -/
def execCls (s : State) : Host.Outcome State Fault Refusal :=
  .next (s.setFb fbClear)

/-- `DXYN` DRW Vx, Vy, N (R151): XOR the sprite of `N` rows at `I` onto the framebuffer at (`V[X]`, `V[Y]`), then
`V[F] <- collision`. -/
def execDrw (x y : Reg) (n : Nibble) (s : State) : Host.Outcome State Fault Refusal :=
  let d := s.drawRows (s.reg x).toNat (s.reg y).toNat n.toNat ⟨s.fb, false⟩
  .next (((s.noteAccess (s.ea 0) n.toNat).setFb d.fb).setFlag d.collision)

end Sys2Proof.Machine
end

