-- ==== Sys2Proof/Machine/IndexMemory.lean ====
section
/-! DEFINITION. The index register and memory transfer (spec 43_index_memory.md). `I` is never changed by a memory
access (R146); each byte is bounds-checked on its own (R59). -/

namespace Sys2Proof.Machine

/-- `ANNN` LD I, NNN (R140). -/
def execLdI (nnn : Addr) (s : State) : Host.Outcome State Fault Refusal :=
  .next (s.setI (zextAddr nnn))

/-- `FX1E` ADD I, Vx (R141): modulo 2^16, no mask, no flag. -/
def execAddI (x : Reg) (s : State) : Host.Outcome State Fault Refusal :=
  .next (s.setI (s.i + zextByte (s.reg x)))

/-- `FX29` LD F, Vx (R142): the whole byte times 5, no nibble mask. -/
def execLdF (x : Reg) (s : State) : Host.Outcome State Fault Refusal :=
  .next (s.setI (zextByte (s.reg x) * 5))

/-- `FX33` LD B, Vx (R143): the decimal digits to `I`, `I + 1`, `I + 2`. -/
def execLdB (x : Reg) (s : State) : Host.Outcome State Fault Refusal :=
  .next (s.storeBytes (s.ea 0) (bcdDigits (s.reg x)))

/-- `FX55` LD [I], Vx (R144): `V[0..X]` to `I .. I + X`. -/
def execStRegs (x : Reg) (s : State) : Host.Outcome State Fault Refusal :=
  .next (s.storeBytes (s.ea 0) (s.regRange x))

/-- `FX65` LD Vx, [I] (R145): `V[0..X]` from `I .. I + X`. -/
def execLdRegs (x : Reg) (s : State) : Host.Outcome State Fault Refusal :=
  .next (loadRegsFrom s (s.ea 0) (x.toNat + 1) (s.noteAccess (s.ea 0) (x.toNat + 1)))

end Sys2Proof.Machine
end

