-- ==== Sys2Proof/Machine/KeysTimers.lean ====
section
/-! DEFINITION. The key and timer instructions (spec 45_keys_timers.md). -/

namespace Sys2Proof.Machine

/-- `EX9E` SKP Vx (R160). -/
def execSkp (x : Reg) (s : State) : Host.Outcome State Fault Refusal :=
  .next (s.skipIf (s.key (s.keyOf x)))

/-- `EXA1` SKNP Vx (R161). -/
def execSknp (x : Reg) (s : State) : Host.Outcome State Fault Refusal :=
  .next (s.skipIf (!s.key (s.keyOf x)))

/-- `FX07` LD Vx, DT (R163). -/
def execLdFromDt (x : Reg) (s : State) : Host.Outcome State Fault Refusal :=
  .next (s.setReg x s.dt)

/-- `FX0A` LD Vx, K (R162): enter the wait with `PC` back at this instruction. `V[X]` is written later, by the
`KeyDown` that resolves the wait, which finds `X` by reading the word at `PC` again (R188). -/
def execLdKey (_x : Reg) (s : State) : Host.Outcome State Fault Refusal :=
  .next ((s.setWait true).setPc (s.pc - 2))

/-- `FX15` LD DT, Vx (R164). -/
def execLdDt (x : Reg) (s : State) : Host.Outcome State Fault Refusal :=
  .next (s.setDt (s.reg x))

/-- `FX18` LD ST, Vx (R165). -/
def execLdSt (x : Reg) (s : State) : Host.Outcome State Fault Refusal :=
  .next (s.setSt (s.reg x))

end Sys2Proof.Machine
end

