-- ==== Sys2Proof/Machine/Cycle.lean ====
section
/-! DEFINITION. The fetch-decode-execute cycle (spec 40_step_cycle.md R90 to R98): what one `Step` does around the
instruction it executes. -/

namespace Sys2Proof.Machine

/-- The unknown opcode: a no-op with a diagnostic, `PC` already advanced (R96, R174). -/
def execUnknown (s : State) : Host.Outcome State Fault Refusal :=
  .next s.warnUnknown

/-- The instruction phase: nothing while `WAIT = 1` (R91); else fetch, decode, advance `PC`, execute (R92 to R96). -/
def instructionPhase (s : State) : Host.Outcome State Fault Refusal :=
  if s.wait then .next s
  else
    match decode s.fetchWord with
    | .ok i => exec i s.advance
    | .error _ => execUnknown s.advance

/-- The timer phase and the end of a step; it runs in every step, the waiting and the faulting ones too (R90). -/
def State.finishStep (s : State) : State := (s.timerPhase s.tickValue).endStep

/-- One `Step`: the instruction phase, then the timer phase (R90, R210). -/
def cycle (s : State) : Host.Outcome State Fault Refusal :=
  match instructionPhase s.beginStep with
  | .next t => .next t.finishStep
  | .fault f => .fault f
  | .refused r => .refused r

end Sys2Proof.Machine
end

