-- ==== Sys2Proof/Machine/Step.lean ====
section
/-! DEFINITION. The machine's step: the host transaction `Step` (spec 40_step_cycle.md R90). -/

namespace Sys2Proof.Machine

/-- One `Step` transaction, with the inputs that `State.inputs` holds (R90). -/
def step (s : State) : Host.Outcome State Fault Refusal := cycle s

/-- `s` with an opcode-table word where the next step fetches: at `PC`, high byte first, no wait pending. -/
def State.withFetchWord (s : State) (nbits w : Nat) : State := s.placeWord (tableWord nbits w)

end Sys2Proof.Machine
end

