-- ==== Sys2Proof/Machine/Transactions.lean ====
section
/-! DEFINITION. The host transactions (spec 60_exceptions.md R187): `Reset`, `Load`, `Step`, `KeyDown`, `KeyUp`,
`ReadFramebuffer`. Each is atomic, and the host issues them one at a time in any order (00_scope.md R15). `Step` is
the machine's `step` with the inputs the host names; inspection (R193) is reading a field of `State`. -/

namespace Sys2Proof.Machine

/-- `Reset` (R200): every piece of the spec's state takes its reset value. What it does not touch (R202): the random
source and the time base, so the model's counts of free draws go on, and later draws are fresh. -/
def State.doReset (s : State) : State :=
  { State.reset with rndDraws := s.rndDraws, tickDraws := s.tickDraws }

/-- The offset of a `Load`: the one the host gives, else 0x200 (R68: `load(bytes, offsetDefault=0x200)`). -/
def loadOffset (offset : Option Nat) : Nat := offset.getD Config.progBase

/-- Whether an image fits: `offset + len <= 4096` (R68, R69). -/
def loadFits (bytes : List Byte) (offset : Nat) : Bool := decide (offset + bytes.length ≤ Config.memTop + 1)

/-- `Load(bytes, offset)` at the offset the transaction resolves to (R68, R69): writes `MEM` only; an image that does not fit writes nothing. -/
def State.load (s : State) (bytes : List Byte) (offset : Nat) : State :=
  if loadFits bytes offset then s.setMem (memWriteAll s.mem offset bytes) else s

/-- `KeyDown(k)` (R188): set the latch; when waiting, complete the pending `FX0A`: the key's code goes to the
register that bits 11:8 of the word at `PC` name, whatever word that is. The transaction has no outcome record, so
the diagnostic of an out-of-range read is lost (R175). -/
def State.keyDown (s : State) (k : Key) : State :=
  if s.wait then
    (((s.setKey k true).setReg (fieldX s.fetchWord) (zextKey k)).setWait false).setPc (s.pc + 2)
  else s.setKey k true

/-- `KeyUp(k)` (R189): clear the latch, and nothing else. -/
def State.keyUp (s : State) (k : Key) : State := s.setKey k false

/-- The host names the inputs of the coming step (R90). -/
def State.supply (s : State) (tick : Bool) (rnd : Byte) : State := { s with inputs := ⟨some tick, some rnd⟩ }

/-- A host transaction with its inputs (R187). -/
inductive Transaction where
  | reset
  /-- `Load(bytes, offset)`; `none`: the host gives no offset, and the default is taken (R68). -/
  | load (bytes : List Byte) (offset : Option Nat)
  | step (tick : Bool) (rnd : Byte)
  | keyDown (k : Key)
  | keyUp (k : Key)
  | readFramebuffer
deriving DecidableEq, Repr

/-- What a transaction gives the host (R187). -/
inductive Response where
  /-- No output. -/
  | done
  /-- `Load` wrote the image (R68). -/
  | loaded
  /-- `Load` refused the image (R69, R170). -/
  | romTooLarge
  /-- The outcome record of a `Step` (R99). -/
  | record (r : StepRecord)
  /-- The snapshot of `ReadFramebuffer` (R190). -/
  | framebuffer (fb : Framebuffer)
deriving DecidableEq, Repr

/-- One transaction: the state after it and what the host receives (R187). -/
def transact (t : Transaction) (s : State) : Host.Outcome (State × Response) Fault Refusal :=
  match t with
  | .reset => .next (s.doReset, .done)
  | .load bytes offset =>
    .next (s.load bytes (loadOffset offset), if loadFits bytes (loadOffset offset) then .loaded else .romTooLarge)
  | .step tick rnd =>
    match step (s.supply tick rnd) with
    | .next u => .next (u, .record u.out)
    | .fault f => .fault f
    | .refused r => .refused r
  | .keyDown k => .next (s.keyDown k, .done)
  | .keyUp k => .next (s.keyUp k, .done)
  | .readFramebuffer => .next (s, .framebuffer s.fb)

end Sys2Proof.Machine
end

