-- ==== Sys2Proof/Safety.lean ====
section
/-! DEFINITION. The terms the statements use: the invariant of the state, what an instruction may write, and what it
leaves unchanged (spec 10_state.md R20, R25, R40, R41; 00_scope.md R13; 20_memory.md R61). -/

namespace Sys2Proof.Machine

/-- The relations between fields that every run keeps: memory is in its canonical form, and the stack holds at most
16 entries (R26). -/
def State.Inv (s : State) : Prop := Memory.wf s.mem = true ∧ s.sp ≤ Config.stackDepth

/-- The pieces of state of R20, and the model's own fields. -/
inductive Part where
  | regs | index | pc | stack | delayTimer | soundTimer | waitFlag | keys | display | memory
  | record | inputs | rndDraws | tickDraws
deriving DecidableEq, Repr

/-- Two states agree on a piece of state: registers by number, keys by number, the display by cell, memory by the
read of one byte. -/
def Part.same (s t : State) : Part → Prop
  | .regs => ∀ r, t.reg r = s.reg r
  | .index => t.i = s.i
  | .pc => t.pc = s.pc
  | .stack => t.stack = s.stack
  | .delayTimer => t.dt = s.dt
  | .soundTimer => t.st = s.st
  | .waitFlag => t.wait = s.wait
  | .keys => ∀ k, t.key k = s.key k
  | .display => ∀ idx, t.cell idx = s.cell idx
  | .memory => ∀ a, t.peek a = s.peek a
  | .record => t.out = s.out
  | .inputs => t.inputs = s.inputs
  | .rndDraws => t.rndDraws = s.rndDraws
  | .tickDraws => t.tickDraws = s.tickDraws

/-- From `s` to `t` nothing changes but, possibly, the pieces of state in `w`. -/
def SameExcept (w : List Part) (s t : State) : Prop := ∀ p, p ∉ w → p.same s t

end Sys2Proof.Machine

namespace Sys2Proof

open Machine

/-- The pieces of state `exec` may write for an instruction: the "written by" column of R20, the `PC` table R25 and
the memory table R61; a fault and an out-of-range access are noted in the outcome record. -/
def Instr.writes : Instr → List Part
  | .cls => [.display]
  | .ret => [.pc, .stack, .record]
  | .jp _ => [.pc]
  | .call _ => [.pc, .stack, .record]
  | .seImm _ _ | .sneImm _ _ | .seReg _ _ _ | .sneReg _ _ _ => [.pc]
  | .ldImm _ _ | .addImm _ _ | .ldReg _ _ | .orReg _ _ | .andReg _ _ | .xorReg _ _ => [.regs]
  | .addReg _ _ | .subReg _ _ | .shr _ _ | .subnReg _ _ | .shl _ _ => [.regs]
  | .ldI _ => [.index]
  | .jpV0 _ => [.pc]
  | .rnd _ _ => [.regs, .rndDraws]
  | .drw _ _ _ => [.regs, .display, .record]
  | .skp _ | .sknp _ => [.pc]
  | .ldFromDt _ => [.regs]
  | .ldKey _ => [.pc, .waitFlag]
  | .ldDt _ => [.delayTimer]
  | .ldSt _ => [.soundTimer]
  | .addI _ | .ldF _ => [.index]
  | .ldB _ | .stRegs _ => [.memory, .record]
  | .ldRegs _ => [.regs, .record]

/-- The instructions that write a flag to `V[F]` (R22, R40). -/
def Instr.setsFlag : Instr → Bool
  | .addReg _ _ | .subReg _ _ | .shr _ _ | .subnReg _ _ | .shl _ _ | .drw _ _ _ => true
  | .cls | .ret | .jp _ | .call _ | .seImm _ _ | .sneImm _ _ | .seReg _ _ _ | .ldImm _ _ | .addImm _ _ | .ldReg _ _
  | .orReg _ _ | .andReg _ _ | .xorReg _ _ | .sneReg _ _ _ | .ldI _ | .jpV0 _ | .rnd _ _ | .skp _ | .sknp _
  | .ldFromDt _ | .ldKey _ | .ldDt _ | .ldSt _ | .addI _ | .ldF _ | .ldB _ | .stRegs _ | .ldRegs _ => false

/-- The registers an instruction writes: its destination, and `V[F]` where the instruction defines a flag (R22,
R40); `FX65` writes `V[0]` to `V[X]` (R145). -/
def Instr.writesReg (r : Reg) : Instr → Bool
  | .ldImm x _ | .addImm x _ | .ldReg x _ | .orReg x _ | .andReg x _ | .xorReg x _ | .rnd x _ | .ldFromDt x => r == x
  | .addReg x _ | .subReg x _ | .shr x _ | .subnReg x _ | .shl x _ => r == x || r == flagReg
  | .drw _ _ _ => r == flagReg
  | .ldRegs x => decide (r.toNat ≤ x.toNat)
  | .cls | .ret | .jp _ | .call _ | .seImm _ _ | .sneImm _ _ | .seReg _ _ _ | .sneReg _ _ _ | .ldI _ | .jpV0 _
  | .skp _ | .sknp _ | .ldKey _ | .ldDt _ | .ldSt _ | .addI _ | .ldF _ | .ldB _ | .stRegs _ => false

/-- How many bytes an instruction stores, from the effective address `I` up (R61, R143, R144). -/
def Instr.storeLength : Instr → Nat
  | .ldB _ => 3
  | .stRegs x => x.toNat + 1
  | .cls | .ret | .jp _ | .call _ | .seImm _ _ | .sneImm _ _ | .seReg _ _ _ | .ldImm _ _ | .addImm _ _ | .ldReg _ _
  | .orReg _ _ | .andReg _ _ | .xorReg _ _ | .addReg _ _ | .subReg _ _ | .shr _ _ | .subnReg _ _ | .shl _ _
  | .sneReg _ _ _ | .ldI _ | .jpV0 _ | .rnd _ _ | .drw _ _ _ | .skp _ | .sknp _ | .ldFromDt _ | .ldKey _ | .ldDt _
  | .ldSt _ | .addI _ | .ldF _ | .ldRegs _ => 0

end Sys2Proof

namespace Sys2Proof.Machine

/-- From `s` to `t`, `V[x]` becomes `b` and nothing else changes. -/
def WritesOnly (s t : State) (x : Reg) (b : Byte) : Prop :=
  (∀ r, t.reg r = if r = x then b else s.reg r) ∧ SameExcept [.regs] s t

/-- From `s` to `t`, `V[F]` becomes the flag, `V[x]` becomes `b` unless it is `V[F]`, and nothing else changes (R132). -/
def WritesResult (s t : State) (x : Reg) (b : Byte) (flag : Byte) : Prop :=
  (∀ r, t.reg r = if r = 0xF then flag else if r = x then b else s.reg r) ∧ SameExcept [.regs] s t

/-- What a step's timer phase and its end may write, whatever the step executes (R183). -/
def timerParts : List Part := [.delayTimer, .soundTimer, .record, .inputs, .tickDraws]

/-- The pieces of state a transaction may change (R41, R187). -/
def Transaction.writes : Transaction → List Part
  | .reset => [.regs, .index, .pc, .stack, .delayTimer, .soundTimer, .waitFlag, .keys, .display, .memory, .record, .inputs]
  | .load _ _ => [.memory]
  | .step _ _ => [.regs, .index, .pc, .stack, .delayTimer, .soundTimer, .waitFlag, .display, .memory, .record, .inputs,
      .rndDraws, .tickDraws]
  | .keyDown _ => [.keys, .regs, .waitFlag, .pc]
  | .keyUp _ => [.keys]
  | .readFramebuffer => []

/-- The instruction the next step executes, when it executes one (R90 to R95). -/
def State.executes (s : State) (i : Instr) : Prop := s.wait = false ∧ decode s.fetchWord = .ok i

/-- The state `exec` runs in during a step: an empty record, the fetch noted, `PC` advanced (R90, R92, R94). -/
def State.dispatched (s : State) : State := s.beginStep.advance

/-- The pixel a sprite bit draws on: row `row`, column `col` of the sprite of `DRW Vx, Vy, N` falls on cell `idx`
and its bit is 1 (R151, R152). -/
def State.spriteBit (s : State) (x y : Reg) (row col idx : Nat) : Prop :=
  idx = pixelIndex ((s.reg x).toNat + col) ((s.reg y).toNat + row) ∧ (s.peek (s.ea row)).getLsbD (7 - col) = true

/-- Some bit of the sprite that is 1 falls on cell `idx` (R151). -/
def State.spriteOn (s : State) (x y : Reg) (n : Nibble) (idx : Nat) : Prop :=
  ∃ row < n.toNat, ∃ col < 8, s.spriteBit x y row col idx

/-- A program that has ended: the word at `PC` is a jump to `PC` (R211). -/
def State.parked (s : State) : Prop := ∃ nnn, s.executes (.jp nnn) ∧ zextAddr nnn = s.pc

end Sys2Proof.Machine
end

