-- ==== Sys2Proof/Certificates/Slice0/Obligations.lean ====
section
/-! DEFINITION. The statements about the model, from the numbered rules of spec/. `exec` runs in the state after the
fetch, where `PC` already holds `A + 2`, `A` being the address of the instruction (spec 40_step_cycle.md R94). A
clause that rests on a choice the spec marks as its own names the decision `D<n>` of 92_eei_decisions.md. -/

open Sys2Proof Sys2Proof.Machine

/-! ## Encoding (30_encoding.md) -/

/-- Decoding the word of any instruction gives that instruction back, with every field; and so do its two bytes, the
high byte first, at the head of a byte stream, whose rest is left (R57, R71, R73, R76, R88). That a field the decode
function of R88 ignores is kept in the instruction, and so comes back, is the model's choice (log entry 13). -/
def Obligations.DecodeAfterEncodeGivesTheInstruction : Prop :=
  (∀ i : Instr, decode (encode i) = .ok i) ∧
  (∀ (i : Instr) (rest : List Byte), decodeBytes (encodeBytes i ++ rest) = .ok (i, rest))

/-- Every word that decodes is the word of the instruction it decodes to: no bit is dropped. The spec's decode function
(R88) ignores `N` in groups 5 and 9 and `Y` in `SHR` and `SHL`; that the decoder keeps these fields, so that they are
not lost either, is the model's choice (log entry 13), not the spec's. -/
def Obligations.EncodeAfterDecodeGivesTheWord : Prop :=
  ∀ (op : Word) (i : Instr), decode op = .ok i → encode i = op

/-- Decoding follows the mask and match columns of the opcode map: a word decodes to an instruction of the row it
selects, every row selected is found, and no two rows select one word (R76; the group-8 digits and the ignored low
nibbles of groups 5 and 9 are the spec's D34 and D10, the exact match in group 0 is D9). -/
def Obligations.DecodeFollowsTheOpcodeMap : Prop :=
  (∀ (op : Word) (i : Instr), decode op = .ok i → i.row.selects op = true) ∧
  (∀ (op : Word) (i : Instr), i.row.selects op = true → ∃ j, decode op = .ok j ∧ j.row = i.row) ∧
  (∀ (op : Word) (i j : Instr), i.row.selects op = true → j.row.selects op = true → i.row = j.row)

/-- The unknown words are exactly those of the table of R82 (R77 and R79 rest on D9 and D34; that no word of groups 5 and
9 is unknown is R78, which rests on D10). -/
def Obligations.UnknownWordsAreTheOnesListed : Prop :=
  ∀ op : Word, (∃ e, decode op = .error e) ↔
    (fieldG op = 0x0 ∧ op ≠ 0x00E0 ∧ op ≠ 0x00EE) ∨
    (fieldG op = 0x8 ∧ fieldN op ∈ [0x8, 0x9, 0xA, 0xB, 0xC, 0xD, 0xF]) ∨
    (fieldG op = 0xE ∧ fieldNN op ∉ [0x9E, 0xA1]) ∨
    (fieldG op = 0xF ∧ fieldNN op ∉ [0x07, 0x0A, 0x15, 0x18, 0x1E, 0x29, 0x33, 0x55, 0x65])

/-- Words the spec writes out decode to the instructions it gives for them (95_test_vectors.md S2 to S8, T2, T25,
T36). Choices the spec marks as its own: 0x00E1 is unknown by D9, 0x5121 is an `SE` by D10, and the low digits of
group 8 are D34 (log entry 9). That the decoder keeps the ignored digit 1 of 0x5121 is the model's choice (log entry
13). -/
def Obligations.WordsOfTheSpecDecode : Prop :=
  decode 0x8124 = .ok (.addReg 1 2) ∧ decode 0x8125 = .ok (.subReg 1 2) ∧ decode 0x8106 = .ok (.shr 1 0) ∧
  decode 0x00E0 = .ok .cls ∧
  decode 0xD011 = .ok (.drw 0 1 1) ∧ decode 0x2300 = .ok (.call 0x300) ∧ decode 0x00EE = .ok .ret ∧
  decode 0xF033 = .ok (.ldB 0) ∧ decode 0x1ABD = .ok (.jp 0xABD) ∧ decode 0x5121 = .ok (.seReg 1 2 1) ∧
  decode 0x00E1 = .error .unknownGroup0

/-! ## The step (40_step_cycle.md) -/

/-- When no wait is pending and the word at `PC` decodes to `i`, the step is `exec i` in the state whose record is
cleared, whose `PC` is advanced by 2 and whose record notes a fetch out of range; then the timer phase (R90, R92, R94,
R95; the order of the phases is D14, the sum modulo 2^16 is D5, the note of a fetch out of range is D8 and D23). -/
def Obligations.StepRunsTheDecodedInstruction : Prop :=
  ∀ (s : State) (i : Instr), s.executes i →
    step s = (match exec i s.dispatched with
      | .next t => .next ((t.timerPhase t.tickValue).endStep)
      | .fault f => .fault f
      | .refused r => .refused r) ∧
    s.dispatched.pc = s.pc + 2 ∧
    s.dispatched.out = ⟨none, false, decide (4095 < s.pc.toNat + 1), false⟩ ∧
    SameExcept [.pc, .record] s s.dispatched

/-- Wait gate: with `WAIT = 1` a step changes only the timers, and its record has no fault and no diagnostic (R91). -/
def Obligations.WaitingStepExecutesNothing : Prop :=
  ∀ s : State, s.wait = true → ∃ u, step s = .next u ∧ SameExcept timerParts s u ∧
    u.dt = countDown s.tickValue s.dt ∧ u.st = countDown s.tickValue s.st ∧
    u.out.fault = none ∧ u.out.unknownOpcode = false ∧ u.out.memOob = false

/-- The unknown opcode: `PC` advances by 2, the diagnostic is set, and nothing else happens (R96) but what every step
does: the fetch notes a byte out of range (R92, R55; D23) and the timer phase follows (R90, R183; D14, D15). -/
def Obligations.UnknownWordIsANoOp : Prop :=
  ∀ (s : State) (e : DecodeError), s.wait = false → decode s.fetchWord = .error e →
    ∃ u, step s = .next u ∧ u.pc = s.pc + 2 ∧ u.out.unknownOpcode = true ∧ u.out.fault = none ∧
      u.out.memOob = decide (4095 < s.pc.toNat + 1) ∧
      u.dt = countDown s.tickValue s.dt ∧ u.st = countDown s.tickValue s.st ∧
      SameExcept (.pc :: timerParts) s u

/-- No condition stops a step: every step of every state answers a next state (R98, R174, R175; for the two faults
R173 and D12). -/
def Obligations.EveryStepAnswersANextState : Prop :=
  ∀ s : State, ∃ u, step s = .next u

/-- Every instruction answers a next state in every state; only `CALL` and `RET` raise a fault, and the fault is in
the record (R97, R98; the record is D13). -/
def Obligations.OnlyCallAndRetRaiseAFault : Prop :=
  ∀ (i : Instr) (s : State), ∃ t, exec i s = .next t ∧
    (t.out.fault ≠ s.out.fault → i = .ret ∨ ∃ nnn, i = .call nnn)

/-- The word at `PC` is big-endian, each byte read on its own, whatever the parity of `PC`; a byte above 4095 reads 0
(R56, R58, R92; D4, D7, D8). -/
def Obligations.FetchIsBigEndianAtAnyPc : Prop :=
  ∀ s : State,
    s.fetchWord.toNat = (s.peek s.pc.toNat).toNat * 256 + (s.peek (s.pc.toNat + 1)).toNat ∧
    (4095 < s.pc.toNat → s.fetchWord = 0)

/-- Fetch sees a byte stored just before: stores to `PC` and `PC + 1` make the word the next step fetches (R66). -/
def Obligations.FetchSeesStoredBytes : Prop :=
  ∀ (s : State) (hi lo : Byte), s.Inv → s.pc.toNat + 1 ≤ 4095 →
    (s.storeBytes s.pc.toNat [hi, lo]).fetchWord = wordOfBytes hi lo

/-- `MemRead` and `MemWrite` of a byte: above 4095 a read gives 0 and a write changes nothing; inside, a write is
read back and no other byte changes (R53, R54). -/
def Obligations.ByteAccessesAreBoundsChecked : Prop :=
  ∀ (m : Memory) (a : Nat) (v : Byte), Memory.wf m = true →
    (4095 < a → memRead m a = 0 ∧ memWrite m a v = m) ∧
    (a ≤ 4095 → memRead (memWrite m a v) a = v) ∧
    (∀ c, c ≠ a → memRead (memWrite m a v) c = memRead m c)

/-! ## Timers (60_exceptions.md section 4) -/

/-- The timer phase: with a tick each non-zero timer loses 1, `beep` is 1 exactly when `ST` goes from 1 to 0, and
nothing else changes (R183, R185; D14, D15, D16, D38). -/
def Obligations.TimerPhaseCountsDown : Prop :=
  ∀ (s : State) (tick : Bool),
    (s.timerPhase tick).dt.toNat = s.dt.toNat - (if tick then 1 else 0) ∧
    (s.timerPhase tick).st.toNat = s.st.toNat - (if tick then 1 else 0) ∧
    ((s.timerPhase tick).out.beep = true ↔ tick = true ∧ s.st = 1) ∧
    (s.timerPhase tick).out.fault = s.out.fault ∧ (s.timerPhase tick).out.unknownOpcode = s.out.unknownOpcode ∧
    (s.timerPhase tick).out.memOob = s.out.memOob ∧
    SameExcept [.delayTimer, .soundTimer, .record] s (s.timerPhase tick)

/-- A timer never increases in a step except by `FX15` or `FX18` (R186; D15). -/
def Obligations.TimersRiseOnlyByTheirLoads : Prop :=
  ∀ s u : State, step s = .next u →
    ((∀ x, ¬ s.executes (.ldDt x)) → u.dt.toNat ≤ s.dt.toNat) ∧
    ((∀ x, ¬ s.executes (.ldSt x)) → u.st.toNat ≤ s.st.toNat)

/-- A waiting machine completes any number `n` of steps with a tick; then each timer holds its value less `n`, and 0 once
that is reached, and the machine still waits at the same `PC` (R183, R186, R192; D15). The law for a running machine is
TickedTimersLoseOneAStep. -/
def Obligations.WaitingTimersReachZeroAfterThatManyTicks : Prop :=
  ∀ (s : State) (n : Nat), s.wait = true →
    ∃ u, (fun r : Option State => r.bind fun t =>
            match step { t with inputs := ⟨some true, none⟩ } with
            | .next t' => some t'
            | .fault _ => none
            | .refused _ => none)^[n] (some s) = some u ∧
      u.dt.toNat = s.dt.toNat - n ∧ u.st.toNat = s.st.toNat - n ∧ u.wait = true ∧ u.pc = s.pc

/-! ## Control transfer (41_control_transfer.md) -/

/-- `JP NNN`, every word with 1 in its top nibble: `PC` becomes `NNN`, whatever it is; nothing else changes (R101). -/
def Obligations.JumpSetsPc : Prop :=
  (∀ op : Word, op &&& 0xF000 = 0x1000 → decode op = .ok (.jp (fieldNNN op))) ∧
  ∀ (nnn : Addr) (s : State), ∃ t, exec (.jp nnn) s = .next t ∧ t.pc.toNat = nnn.toNat ∧ SameExcept [.pc] s t

/-- `JP V0, NNN`: `PC` becomes the sum, which cannot wrap and is not reduced to 12 bits (R107; D4). -/
def Obligations.JumpV0AddsTheOffset : Prop :=
  ∀ (nnn : Addr) (s : State), ∃ t, exec (.jpV0 nnn) s = .next t ∧
    t.pc.toNat = (s.reg 0).toNat + nnn.toNat ∧ SameExcept [.pc] s t

/-- `CALL NNN` with fewer than 16 entries pushes the return address, all 16 bits of it, and jumps (R102; D35). -/
def Obligations.CallPushesTheReturnAddress : Prop :=
  ∀ (nnn : Addr) (s : State), s.sp < 16 → ∃ t, exec (.call nnn) s = .next t ∧
    t.pc.toNat = nnn.toNat ∧ t.stack = s.stack ++ [s.pc] ∧ t.sp = s.sp + 1 ∧ SameExcept [.pc, .stack] s t

/-- `RET` with a non-empty stack removes the newest entry and loads all 16 bits of it into `PC` (R100; D35). -/
def Obligations.RetPopsTheNewestEntry : Prop :=
  ∀ (s : State) (below : List Word) (w : Word), s.stack = below ++ [w] → ∃ t, exec .ret s = .next t ∧
    t.pc = w ∧ t.stack = below ∧ SameExcept [.pc, .stack] s t

/-- A stack fault writes nothing: `PC` is back at the faulting instruction and the record holds the fault (R97, R171,
R172, R173; that `PC` goes back is D12). -/
def Obligations.StackFaultsWriteNothing : Prop :=
  ∀ (nnn : Addr) (s : State),
    (16 ≤ s.sp → ∃ t, exec (.call nnn) s = .next t ∧ t.pc = s.pc - 2 ∧
      t.out = { s.out with fault := some .stackOverflow } ∧ SameExcept [.pc, .record] s t) ∧
    (s.sp = 0 → ∃ t, exec .ret s = .next t ∧ t.pc = s.pc - 2 ∧
      t.out = { s.out with fault := some .stackUnderflow } ∧ SameExcept [.pc, .record] s t)

/-- A faulted machine never makes progress: however many steps are issued, every one faults again, at the same `PC`
with the same stack (R180; D12, D37). -/
def Obligations.StackFaultsRepeatForever : Prop :=
  ∀ (s : State) (n : Nat),
    ((∃ nnn, s.executes (.call nnn)) → 16 ≤ s.sp → ∃ u, core.run (n + 1) s = .next u ∧
      u.out.fault = some .stackOverflow ∧ SameExcept timerParts s u) ∧
    (s.executes .ret → s.sp = 0 → ∃ u, core.run (n + 1) s = .next u ∧
      u.out.fault = some .stackUnderflow ∧ SameExcept timerParts s u)

/-- `SE Vx, NN` and `SNE Vx, NN` skip, by 2, exactly when the register equals, or differs from, the byte; nothing
else changes (R103, R104). -/
def Obligations.ImmediateSkipsTestTheRegister : Prop :=
  (∀ op : Word, op &&& 0xF000 = 0x3000 → decode op = .ok (.seImm (fieldX op) (fieldNN op))) ∧
  (∀ op : Word, op &&& 0xF000 = 0x4000 → decode op = .ok (.sneImm (fieldX op) (fieldNN op))) ∧
  ∀ (x : Reg) (nn : Byte) (s : State),
    (∃ t, exec (.seImm x nn) s = .next t ∧ t.pc = (if s.reg x = nn then s.pc + 2 else s.pc) ∧ SameExcept [.pc] s t) ∧
    (∃ t, exec (.sneImm x nn) s = .next t ∧ t.pc = (if s.reg x = nn then s.pc else s.pc + 2) ∧ SameExcept [.pc] s t)

/-- `SE Vx, Vy` and `SNE Vx, Vy` likewise, whatever the low nibble of the word (R105, R106; the ignored nibble is
D10). -/
def Obligations.RegisterSkipsCompareTwoRegisters : Prop :=
  ∀ (x y : Reg) (n : Nibble) (s : State),
    (∃ t, exec (.seReg x y n) s = .next t ∧ t.pc = (if s.reg x = s.reg y then s.pc + 2 else s.pc) ∧
      SameExcept [.pc] s t) ∧
    (∃ t, exec (.sneReg x y n) s = .next t ∧ t.pc = (if s.reg x = s.reg y then s.pc else s.pc + 2) ∧
      SameExcept [.pc] s t)

/-- `SKP Vx` and `SKNP Vx` skip exactly when the key that the low four bits of `V[x]` select is down, or up; the key
stays as it is (R160, R161; that a value above 15 selects by its low four bits is R166, D11). -/
def Obligations.KeySkipsTestTheLatch : Prop :=
  ∀ (x : Reg) (k : Key) (s : State), k.toNat = (s.reg x).toNat % 16 →
    (∃ t, exec (.skp x) s = .next t ∧ t.pc = (if s.key k then s.pc + 2 else s.pc) ∧ SameExcept [.pc] s t) ∧
    (∃ t, exec (.sknp x) s = .next t ∧ t.pc = (if s.key k then s.pc else s.pc + 2) ∧ SameExcept [.pc] s t)

/-! ## Loads, arithmetic, logic, shifts, random (42_alu.md) -/

/-- `LD Vx, NN`, `ADD Vx, NN` and `LD Vx, Vy` write `V[x]` and nothing else: no flag, even when the sum exceeds 255
(R120, R121, R122). -/
def Obligations.LoadsAndAddImmediateWriteOneRegister : Prop :=
  (∀ op : Word, op &&& 0xF000 = 0x6000 → decode op = .ok (.ldImm (fieldX op) (fieldNN op))) ∧
  (∀ op : Word, op &&& 0xF000 = 0x7000 → decode op = .ok (.addImm (fieldX op) (fieldNN op))) ∧
  (∀ op : Word, op &&& 0xF00F = 0x8000 → decode op = .ok (.ldReg (fieldX op) (fieldY op))) ∧
  ∀ (x y : Reg) (nn : Byte) (s : State),
    (∃ t, exec (.ldImm x nn) s = .next t ∧ WritesOnly s t x nn) ∧
    (∃ t, exec (.addImm x nn) s = .next t ∧
      WritesOnly s t x (BitVec.ofNat 8 (((s.reg x).toNat + nn.toNat) % 256))) ∧
    (∃ t, exec (.ldReg x y) s = .next t ∧ WritesOnly s t x (s.reg y))

/-- `OR`, `AND`, `XOR` combine the two registers bit by bit into `V[x]`; `V[F]` is unchanged unless it is `V[x]` (R123,
R124, R125; that no flag is written is D22). -/
def Obligations.LogicCombinesBits : Prop :=
  ∀ (x y : Reg) (s : State),
    (∃ t b, exec (.orReg x y) s = .next t ∧ WritesOnly s t x b ∧
      ∀ i < 8, b.getLsbD i = ((s.reg x).getLsbD i || (s.reg y).getLsbD i)) ∧
    (∃ t b, exec (.andReg x y) s = .next t ∧ WritesOnly s t x b ∧
      ∀ i < 8, b.getLsbD i = ((s.reg x).getLsbD i && (s.reg y).getLsbD i)) ∧
    (∃ t b, exec (.xorReg x y) s = .next t ∧ WritesOnly s t x b ∧
      ∀ i < 8, b.getLsbD i = ((s.reg x).getLsbD i ^^ (s.reg y).getLsbD i))

/-- `ADD Vx, Vy`: the sum modulo 256, and `V[F]` = 1 iff the sum exceeds 255 (R126, R133; that the flag overwrites the
sum when `x` is F is D3). -/
def Obligations.AddSetsSumAndCarry : Prop :=
  ∀ (x y : Reg) (s : State), ∃ t, exec (.addReg x y) s = .next t ∧
    WritesResult s t x (BitVec.ofNat 8 (((s.reg x).toNat + (s.reg y).toNat) % 256))
      (if (s.reg x).toNat + (s.reg y).toNat > 255 then 1 else 0)

/-- `SUB` and `SUBN`: the difference modulo 256, and `V[F]` = 1 iff the minuend is strictly the greater, so 0 for equal
operands (R127, R129, R133, R134; that the flag overwrites the difference when `x` is F is D3). -/
def Obligations.SubtractSetsDifferenceAndStrictFlag : Prop :=
  ∀ (x y : Reg) (s : State),
    (∃ t, exec (.subReg x y) s = .next t ∧
      WritesResult s t x (BitVec.ofNat 8 ((256 + (s.reg x).toNat - (s.reg y).toNat) % 256))
        (if (s.reg x).toNat > (s.reg y).toNat then 1 else 0)) ∧
    (∃ t, exec (.subnReg x y) s = .next t ∧
      WritesResult s t x (BitVec.ofNat 8 ((256 + (s.reg y).toNat - (s.reg x).toNat) % 256))
        (if (s.reg y).toNat > (s.reg x).toNat then 1 else 0))

/-- `SHR` and `SHL` shift `V[x]` by one bit, a zero shifted in, and `V[F]` is the bit shifted out; the `Y` field has no
effect (R128, R130; that the flag overwrites the result when `x` is F is D3). -/
def Obligations.ShiftsMoveOneBitIntoTheFlag : Prop :=
  ∀ (x y : Reg) (s : State),
    (∃ t, exec (.shr x y) s = .next t ∧
      WritesResult s t x (BitVec.ofNat 8 ((s.reg x).toNat / 2)) (BitVec.ofNat 8 ((s.reg x).toNat % 2))) ∧
    (∃ t, exec (.shl x y) s = .next t ∧
      WritesResult s t x (BitVec.ofNat 8 ((s.reg x).toNat * 2 % 256)) (BitVec.ofNat 8 ((s.reg x).toNat / 128)))

/-- `RND Vx, NN`: `V[x]` is `rnd AND NN`, for every value of `rnd`; the model's count of draws goes on, so the next `rnd`
is a fresh free value (R131; that `rnd` is a free input is D17, log entry 2). -/
def Obligations.RandomByteIsMasked : Prop :=
  ∀ (x : Reg) (nn : Byte) (s : State), ∃ t, exec (.rnd x nn) s = .next t ∧
    (∀ r, t.reg r = if r = x then s.rndValue &&& nn else s.reg r) ∧
    t.rndDraws = s.rndDraws + 1 ∧ SameExcept [.regs, .rndDraws] s t ∧
    (∀ r, s.inputs.rnd = some r → t.reg x = r &&& nn)

/-- A step that does not execute `RND` gives the same state whatever `rnd` is (R131, R91; D17). -/
def Obligations.RandomInputReachesOnlyRnd : Prop :=
  ∀ (s : State) (r r' : Byte) (tick : Bool), (∀ x nn, ¬ s.executes (.rnd x nn)) →
    step (s.supply tick r) = step (s.supply tick r')

/-- A flag write stores 0 or 1; an instruction that sets no flag leaves `V[F]` alone unless it names `V[F]` as an ordinary
destination (R22, R40; that the flag remains when a flag-setting instruction also names `V[F]` is D3, that an effect not
listed is absent is D22). -/
def Obligations.FlagIsWrittenByItsInstructionsOnly : Prop :=
  ∀ (i : Instr) (s t : State), exec i s = .next t →
    (i.setsFlag = true → t.reg 0xF = 0 ∨ t.reg 0xF = 1) ∧
    (i.setsFlag = false → i.writesReg 0xF = false → t.reg 0xF = s.reg 0xF)

/-! ## Index and memory transfer (43_index_memory.md) -/

/-- `LD I, NNN` sets `I` to `NNN`; `ADD I, Vx` adds modulo 2^16 with no mask and no flag; `LD F, Vx` sets `I` to five
times the whole byte (R140, R141, R142; that nothing is masked is D6 and D30). -/
def Obligations.IndexInstructionsSetI : Prop :=
  ∀ (x : Reg) (nnn : Addr) (s : State),
    (∃ t, exec (.ldI nnn) s = .next t ∧ t.i.toNat = nnn.toNat ∧ SameExcept [.index] s t) ∧
    (∃ t, exec (.addI x) s = .next t ∧ t.i.toNat = (s.i.toNat + (s.reg x).toNat) % 65536 ∧ SameExcept [.index] s t) ∧
    (∃ t, exec (.ldF x) s = .next t ∧ t.i.toNat = 5 * (s.reg x).toNat ∧ SameExcept [.index] s t)

/-- `LD B, Vx`: hundreds, tens and ones of `V[x]` at `I`, `I + 1`, `I + 2`, one digit a byte; a digit whose address is
above 4095 is dropped and noted (R143; D7, D23, D39). -/
def Obligations.BcdStoresTheThreeDigits : Prop :=
  ∀ (x : Reg) (s : State), s.Inv → ∃ t, exec (.ldB x) s = .next t ∧
    (s.i.toNat ≤ 4095 → (t.peek s.i.toNat).toNat = (s.reg x).toNat / 100) ∧
    (s.i.toNat + 1 ≤ 4095 → (t.peek (s.i.toNat + 1)).toNat = (s.reg x).toNat / 10 % 10) ∧
    (s.i.toNat + 2 ≤ 4095 → (t.peek (s.i.toNat + 2)).toNat = (s.reg x).toNat % 10) ∧
    (∀ a, a < s.i.toNat ∨ s.i.toNat + 3 ≤ a → t.peek a = s.peek a) ∧
    t.out = { s.out with memOob := s.out.memOob || decide (4095 < s.i.toNat + 2) } ∧
    SameExcept [.memory, .record] s t

/-- `LD [I], Vx`: `V[0]` to `V[x]`, inclusive, at `I` to `I + x`; a byte above 4095 is dropped and noted; `I` is unchanged
(R144; D7, D22, D23, D39). -/
def Obligations.StoreRegistersWritesTheRange : Prop :=
  ∀ (x : Reg) (s : State), s.Inv → ∃ t, exec (.stRegs x) s = .next t ∧
    (∀ k : Reg, k.toNat ≤ x.toNat → s.i.toNat + k.toNat ≤ 4095 → t.peek (s.i.toNat + k.toNat) = s.reg k) ∧
    (∀ a, a < s.i.toNat ∨ s.i.toNat + x.toNat < a → t.peek a = s.peek a) ∧
    t.out = { s.out with memOob := s.out.memOob || decide (4095 < s.i.toNat + x.toNat) } ∧
    SameExcept [.memory, .record] s t

/-- `LD Vx, [I]`: `V[0]` to `V[x]`, inclusive, from `I` to `I + x`; a byte above 4095 loads 0 and is noted; `I`, memory and
the registers above `V[x]` are unchanged (R145; D7, D22, D23, D39). -/
def Obligations.LoadRegistersReadsTheRange : Prop :=
  ∀ (x : Reg) (s : State), ∃ t, exec (.ldRegs x) s = .next t ∧
    (∀ k : Reg, t.reg k = if k.toNat ≤ x.toNat then s.peek (s.i.toNat + k.toNat) else s.reg k) ∧
    (∀ k : Reg, k.toNat ≤ x.toNat → 4095 < s.i.toNat + k.toNat → t.reg k = 0) ∧
    t.out = { s.out with memOob := s.out.memOob || decide (4095 < s.i.toNat + x.toNat) } ∧
    SameExcept [.regs, .record] s t

/-- Registers stored by `FX55` inside memory come back by `FX65` with the same `I`, whatever happened to the registers
in between (R144, R145; D22). -/
def Obligations.LoadAfterStoreRestoresTheRegisters : Prop :=
  ∀ (x : Reg) (s t u : State), s.Inv → s.i.toNat + x.toNat ≤ 4095 → exec (.stRegs x) s = .next t →
    u.i = t.i → u.mem = t.mem → ∃ w, exec (.ldRegs x) u = .next w ∧ ∀ k : Reg, k.toNat ≤ x.toNat → w.reg k = s.reg k

/-! ## Display (44_display.md) -/

/-- `CLS`, the word 0x00E0 and no other: every cell becomes 0 and nothing else changes (R150; that no other word of group
0 is `CLS` rests on R77's exact match, D9). -/
def Obligations.ClsClearsEveryCell : Prop :=
  (∀ op : Word, decode op = .ok .cls ↔ op = 0x00E0) ∧
  ∀ s : State, ∃ t, exec .cls s = .next t ∧ (∀ idx, t.cell idx = false) ∧ SameExcept [.display] s t

/-- `DRW Vx, Vy, N`: a cell is inverted exactly when a 1 bit of the sprite falls on it, and `V[F]` is 1 iff such a cell was
1 before, else 0; `I`, memory and the other registers are unchanged (R151, R153; the linear
index is R152, D18; a height of 0 is R154, D19; sprite bytes out of range are D7, D23, D39). -/
def Obligations.DrawXorsTheSprite : Prop :=
  ∀ (x y : Reg) (n : Nibble) (s : State), ∃ t, exec (.drw x y n) s = .next t ∧
    (∀ idx ≤ 2047, (s.spriteOn x y n idx → t.cell idx = !s.cell idx) ∧
      (¬ s.spriteOn x y n idx → t.cell idx = s.cell idx)) ∧
    ((∃ idx ≤ 2047, s.spriteOn x y n idx ∧ s.cell idx = true) → t.reg 0xF = 1) ∧
    ((∀ idx ≤ 2047, s.spriteOn x y n idx → s.cell idx = false) → t.reg 0xF = 0) ∧
    (∀ r, r ≠ 0xF → t.reg r = s.reg r) ∧
    t.out = { s.out with memOob := s.out.memOob || decide (0 < n.toNat ∧ 4095 < s.i.toNat + n.toNat - 1) } ∧
    SameExcept [.regs, .display, .record] s t

/-- Drawing the same sprite twice at the same place restores the framebuffer, and the second draw reports a collision
iff a drawn 1 bit of the sprite met a 0 the first time (from R151, D18; R153 says "iff the sprite had at least one
drawn 1 bit", which R151 gives only where the first draw lit a cell: log entry 12). -/
def Obligations.DrawTwiceRestoresTheDisplay : Prop :=
  ∀ (x y : Reg) (n : Nibble) (s t u : State), exec (.drw x y n) s = .next t →
    u.fb = t.fb → u.reg x = s.reg x → u.reg y = s.reg y → u.i = s.i → (∀ a, u.peek a = s.peek a) →
    ∃ w, exec (.drw x y n) u = .next w ∧ (∀ idx, w.cell idx = s.cell idx) ∧
      (w.reg 0xF = 1 ↔ ∃ idx ≤ 2047, s.spriteOn x y n idx ∧ s.cell idx = false)

/-! ## Keys and timers (45_keys_timers.md, 60_exceptions.md) -/

/-- `LD Vx, K` sets `WAIT` and puts `PC` back at the instruction; nothing else changes, `V[x]` included (R162; D24). -/
def Obligations.WaitForKeySuspendsAtTheInstruction : Prop :=
  ∀ (x : Reg) (s : State), ∃ t, exec (.ldKey x) s = .next t ∧ t.wait = true ∧ t.pc = s.pc - 2 ∧
    SameExcept [.pc, .waitFlag] s t

/-- `KeyDown(k)`: the latch is set; when waiting, the code goes to the register the word at `PC` names, the wait ends and
`PC` moves past the word; otherwise nothing else changes (R188; D24, D28, D29; that the key stays down after
it resolved a wait is R31, D26). -/
def Obligations.KeyDownResolvesAWait : Prop :=
  ∀ (s : State) (k : Key), (∀ j, (s.keyDown k).key j = if j = k then true else s.key j) ∧
    (s.wait = true → (s.keyDown k).wait = false ∧ (s.keyDown k).pc = s.pc + 2 ∧
      (∀ r, ((s.keyDown k).reg r).toNat = if r = fieldX s.fetchWord then k.toNat else (s.reg r).toNat) ∧
      SameExcept [.keys, .regs, .waitFlag, .pc] s (s.keyDown k)) ∧
    (s.wait = false → SameExcept [.keys] s (s.keyDown k))

/-- `LD Vx, K` executed by a step and then a `KeyDown(k)`: `V[x]` holds the key's code and execution goes on after the
instruction (R162, R188; D24, D29). -/
def Obligations.WaitForKeyThenKeyDownLoadsTheCode : Prop :=
  ∀ (s u : State) (x : Reg) (k : Key), s.executes (.ldKey x) → step s = .next u →
    u.wait = true ∧ u.pc = s.pc ∧ ((u.keyDown k).reg x).toNat = k.toNat ∧
      (∀ r, r ≠ x → (u.keyDown k).reg r = s.reg r) ∧ (u.keyDown k).wait = false ∧ (u.keyDown k).pc = s.pc + 2

/-- Nothing but a `KeyDown` or a `Reset` ends a wait: not a step, a `KeyUp`, a `Load` or a read (R189, R192; D24, D28). -/
def Obligations.OnlyKeyDownOrResetEndsAWait : Prop :=
  ∀ (tr : Transaction) (s u : State) (r : Response), transact tr s = .next (u, r) → s.wait = true → u.wait = false →
    tr = .reset ∨ ∃ k, tr = .keyDown k

/-- `KeyUp(k)` clears `KEY[k]` and nothing else (R189; D28). -/
def Obligations.KeyUpClearsTheLatchOnly : Prop :=
  ∀ (s : State) (k : Key), (∀ j, (s.keyUp k).key j = if j = k then false else s.key j) ∧ SameExcept [.keys] s (s.keyUp k)

/-- `LD Vx, DT` reads the delay timer, as the step found it; `LD DT, Vx` and `LD ST, Vx` write a timer, with any 8-bit
value, and nothing else (R163, R164, R165; the directions of FX07 and FX15 are D33). -/
def Obligations.TimersAreReadAndLoaded : Prop :=
  ∀ (x : Reg) (s : State),
    (∃ t, exec (.ldFromDt x) s = .next t ∧ WritesOnly s t x s.dt) ∧
    (∃ t, exec (.ldDt x) s = .next t ∧ t.dt = s.reg x ∧ SameExcept [.delayTimer] s t) ∧
    (∃ t, exec (.ldSt x) s = .next t ∧ t.st = s.reg x ∧ SameExcept [.soundTimer] s t)

/-! ## Host transactions (20_memory.md section 6, 60_exceptions.md section 5, 70_reset_and_hazards.md) -/

/-- `Load`: an image that fits is in memory at the offset and every other byte is as before; one that does not fit
writes nothing and is answered `RomTooLarge`; no other state changes; without an offset the image goes to 0x200 (R68,
R69; D21). -/
def Obligations.LoadWritesTheImageOrNothing : Prop :=
  ∀ (s : State) (bytes : List Byte) (offset : Nat), s.Inv →
    transact (.load bytes none) s = transact (.load bytes (some 0x200)) s ∧
    (offset + bytes.length ≤ 4096 → ∃ u, transact (.load bytes (some offset)) s = .next (u, .loaded) ∧
      (∀ k (h : k < bytes.length), u.peek (offset + k) = bytes[k]) ∧
      (∀ a, a < offset ∨ offset + bytes.length ≤ a → u.peek a = s.peek a) ∧ SameExcept [.memory] s u) ∧
    (4096 < offset + bytes.length → transact (.load bytes (some offset)) s = .next (s, .romTooLarge))

/-- After reset memory holds the font table at 0 to 79 and 0 at 80 to 4095 (R201; that the table has the bytes of
`Config.font` is D31, log entry 1). -/
def Obligations.ResetMemoryHoldsTheFont : Prop :=
  (∀ a (h : a < 80), State.reset.peek a = Config.font[a]) ∧ (∀ a, 80 ≤ a → a ≤ 4095 → State.reset.peek a = 0) ∧
  Config.font.length = 80

/-- After reset the registers, `I`, the stack and the timers are 0 or empty, `PC` is 0x200 and the display is clear (the
reset sentences of R38 and R200); that every key is up and no wait is pending is the spec's reading, D20. -/
def Obligations.ResetStateHasTheResetValues : Prop :=
  (∀ r, State.reset.reg r = 0) ∧ State.reset.i = 0 ∧ State.reset.pc = 0x200 ∧ State.reset.stack = [] ∧
  State.reset.sp = 0 ∧ State.reset.dt = 0 ∧ State.reset.st = 0 ∧ (∀ idx, State.reset.cell idx = false) ∧
  (∀ k, State.reset.key k = false) ∧ State.reset.wait = false

/-- The transaction `Reset` puts every piece of the spec's state to its reset value from any state, and leaves the free
draws to go on (R200, R201, R202; D20, D31, D40). -/
def Obligations.ResetTransactionResetsEverything : Prop :=
  ∀ s : State, ∃ u, transact .reset s = .next (u, .done) ∧ SameExcept [.rndDraws, .tickDraws] State.reset u ∧
    u.rndDraws = s.rndDraws ∧ u.tickDraws = s.tickDraws

/-- Every transaction completes in every state, changes only the pieces of state its row of R187 names, and answers what
that row says: memory changes only by `Step`, `Reset`, `Load`; the display only by `Step`, `Reset`; the keys only by
`KeyDown`, `KeyUp`, `Reset` (R41; D1). `Reset` answers nothing (R200). `Load` changes only the bytes of the image and
answers whether it fits (R68, R69; D21). `Step(tick, rnd)` is the step with these two inputs and answers its outcome
record (R90, R99; D13, D15, D17). `KeyDown` and `KeyUp` change no key but their own and answer nothing, and a `KeyDown`
changes nothing else when no wait is pending (R188, R189; D28). `ReadFramebuffer` answers the cells as they stand
(R190). -/
def Obligations.TransactionsChangeOnlyWhatTheyMay : Prop :=
  (∀ (tr : Transaction) (s : State), ∃ u r, transact tr s = .next (u, r) ∧ SameExcept tr.writes s u) ∧
  (∀ s : State, transact .reset s = .next (s.doReset, .done)) ∧
  (∀ (bytes : List Byte) (offset : Option Nat) (s : State), ∃ u,
    transact (.load bytes offset) s =
      .next (u, if loadOffset offset + bytes.length ≤ 4096 then .loaded else .romTooLarge) ∧
    (∀ a, a < loadOffset offset ∨ loadOffset offset + bytes.length ≤ a → u.peek a = s.peek a)) ∧
  (∀ (tick : Bool) (rnd : Byte) (s : State),
    (s.supply tick rnd).tickValue = tick ∧ (s.supply tick rnd).rndValue = rnd ∧
    SameExcept [.inputs] s (s.supply tick rnd) ∧
    ∃ u, step (s.supply tick rnd) = .next u ∧ transact (.step tick rnd) s = .next (u, .record u.out)) ∧
  (∀ (k : Key) (s : State), transact (.keyDown k) s = .next (s.keyDown k, .done) ∧
    (∀ j, j ≠ k → (s.keyDown k).key j = s.key j) ∧ (s.wait = false → SameExcept [.keys] s (s.keyDown k))) ∧
  (∀ (k : Key) (s : State), transact (.keyUp k) s = .next (s.keyUp k, .done) ∧
    ∀ j, j ≠ k → (s.keyUp k).key j = s.key j) ∧
  (∀ s : State, ∃ fb, transact .readFramebuffer s = .next (s, .framebuffer fb) ∧ ∀ idx, fbCell fb idx = s.cell idx)

/-! ## Invariants and frames -/

/-- The state after reset meets the invariant: memory is canonical and the stack within its bound. -/
def Obligations.ResetMeetsTheInvariant : Prop :=
  State.reset.Inv

/-- Every step keeps the invariant: memory stays canonical, and the stack never exceeds 16 entries (R26). -/
def Obligations.StepKeepsTheInvariant : Prop :=
  ∀ s u : State, s.Inv → step s = .next u → u.Inv

/-- Every host transaction keeps the invariant, so it holds in every state a host can bring about. -/
def Obligations.TransactionsKeepTheInvariant : Prop :=
  ∀ (tr : Transaction) (s u : State) (r : Response), s.Inv → transact tr s = .next (u, r) → u.Inv

/-- The frame of every instruction: it changes no piece of state but those the spec lists for it (R13, R20, R25, R61;
that an effect not mentioned is absent is D22). -/
def Obligations.InstructionsChangeOnlyWhatTheyMay : Prop :=
  ∀ (i : Instr) (s t : State), exec i s = .next t → SameExcept i.writes s t

/-- The frame of the registers: a register that is neither the destination nor, for a flag-setting instruction, `V[F]`
is unchanged (R13, R22, R40; D3, D22). -/
def Obligations.UnwrittenRegistersAreUnchanged : Prop :=
  ∀ (i : Instr) (s t : State) (r : Reg), exec i s = .next t → i.writesReg r = false → t.reg r = s.reg r

/-- The frame of memory: every byte outside the stored ones, which begin at the effective address `I`, reads as before;
an instruction that stores nothing leaves every byte (R61, R143, R144; D7, D22). -/
def Obligations.UnstoredBytesAreUnchanged : Prop :=
  ∀ (i : Instr) (s t : State) (a : Nat), exec i s = .next t →
    (a < s.ea 0 ∨ s.ea 0 + i.storeLength ≤ a) → t.peek a = s.peek a

/-- A program that has ended by a jump to itself stays there: a step changes nothing but the timers (R211; D27). -/
def Obligations.ParkedProgramStaysParked : Prop :=
  ∀ s : State, s.parked → ∃ u, step s = .next u ∧ SameExcept timerParts s u ∧ u.parked

/-! ## Timers of a running machine (60_exceptions.md section 4) -/

/-- A timer loses 1 in a step with a tick and keeps its value in a step without one, when the step does not load it; so
after `n` steps with a tick, in which it is not loaded, it holds its value less `n`, and 0 once that is reached, whatever
the machine runs (R183, R186; 95_test_vectors.md S9; D14, D15). -/
def Obligations.TickedTimersLoseOneAStep : Prop :=
  (∀ s u : State, step s = .next u →
    ((∀ x, ¬ s.executes (.ldDt x)) → u.dt.toNat = s.dt.toNat - (if s.tickValue then 1 else 0)) ∧
    ((∀ x, ¬ s.executes (.ldSt x)) → u.st.toNat = s.st.toNat - (if s.tickValue then 1 else 0))) ∧
  (∀ (run : Nat → State) (rnd : Nat → Byte) (n : Nat),
    (∀ k < n, step ((run k).supply true (rnd k)) = .next (run (k + 1))) →
    ((∀ k < n, ∀ x, ¬ (run k).executes (.ldDt x)) → (run n).dt.toNat = (run 0).dt.toNat - n) ∧
    ((∀ k < n, ∀ x, ¬ (run k).executes (.ldSt x)) → (run n).st.toNat = (run 0).st.toNat - n))
end

