-- ==== Sys2Proof/Laws/State.lean ====
section
/-! SUPPORT. One lemma per field per update of the state, and per accessor an update does not touch, all true by
unfolding the update; so that no proof unfolds a record update. -/

namespace Sys2Proof.Machine

/-! ### The fixed parameters as numerals -/

theorem memTop_eq : Config.memTop = 4095 := rfl
theorem fbTop_eq : Config.fbTop = 2047 := rfl
theorem stackDepth_eq : Config.stackDepth = 16 := rfl
theorem progBase_eq : Config.progBase = 0x200 := rfl

variable (s : State)

/-! ### setPc -/

@[simp] theorem State.setPc_v (w : Word) : (s.setPc w).v = s.v := rfl
@[simp] theorem State.setPc_i (w : Word) : (s.setPc w).i = s.i := rfl
@[simp] theorem State.setPc_pc (w : Word) : (s.setPc w).pc = w := rfl
@[simp] theorem State.setPc_stack (w : Word) : (s.setPc w).stack = s.stack := rfl
@[simp] theorem State.setPc_dt (w : Word) : (s.setPc w).dt = s.dt := rfl
@[simp] theorem State.setPc_st (w : Word) : (s.setPc w).st = s.st := rfl
@[simp] theorem State.setPc_wait (w : Word) : (s.setPc w).wait = s.wait := rfl
@[simp] theorem State.setPc_keys (w : Word) : (s.setPc w).keys = s.keys := rfl
@[simp] theorem State.setPc_fb (w : Word) : (s.setPc w).fb = s.fb := rfl
@[simp] theorem State.setPc_mem (w : Word) : (s.setPc w).mem = s.mem := rfl
@[simp] theorem State.setPc_out (w : Word) : (s.setPc w).out = s.out := rfl
@[simp] theorem State.setPc_inputs (w : Word) : (s.setPc w).inputs = s.inputs := rfl
@[simp] theorem State.setPc_rndDraws (w : Word) : (s.setPc w).rndDraws = s.rndDraws := rfl
@[simp] theorem State.setPc_tickDraws (w : Word) : (s.setPc w).tickDraws = s.tickDraws := rfl
@[simp] theorem State.setPc_reg (w : Word) (q : Reg) : (s.setPc w).reg q = s.reg q := rfl
@[simp] theorem State.setPc_key (w : Word) (k : Key) : (s.setPc w).key k = s.key k := rfl
@[simp] theorem State.setPc_cell (w : Word) (idx : Nat) : (s.setPc w).cell idx = s.cell idx := rfl
@[simp] theorem State.setPc_peek (w : Word) (c : Nat) : (s.setPc w).peek c = s.peek c := rfl
@[simp] theorem State.setPc_ea (w : Word) (c : Nat) : (s.setPc w).ea c = s.ea c := rfl
@[simp] theorem State.setPc_sp (w : Word) : (s.setPc w).sp = s.sp := rfl

/-! ### setI -/

@[simp] theorem State.setI_v (w : Word) : (s.setI w).v = s.v := rfl
@[simp] theorem State.setI_i (w : Word) : (s.setI w).i = w := rfl
@[simp] theorem State.setI_pc (w : Word) : (s.setI w).pc = s.pc := rfl
@[simp] theorem State.setI_stack (w : Word) : (s.setI w).stack = s.stack := rfl
@[simp] theorem State.setI_dt (w : Word) : (s.setI w).dt = s.dt := rfl
@[simp] theorem State.setI_st (w : Word) : (s.setI w).st = s.st := rfl
@[simp] theorem State.setI_wait (w : Word) : (s.setI w).wait = s.wait := rfl
@[simp] theorem State.setI_keys (w : Word) : (s.setI w).keys = s.keys := rfl
@[simp] theorem State.setI_fb (w : Word) : (s.setI w).fb = s.fb := rfl
@[simp] theorem State.setI_mem (w : Word) : (s.setI w).mem = s.mem := rfl
@[simp] theorem State.setI_out (w : Word) : (s.setI w).out = s.out := rfl
@[simp] theorem State.setI_inputs (w : Word) : (s.setI w).inputs = s.inputs := rfl
@[simp] theorem State.setI_rndDraws (w : Word) : (s.setI w).rndDraws = s.rndDraws := rfl
@[simp] theorem State.setI_tickDraws (w : Word) : (s.setI w).tickDraws = s.tickDraws := rfl
@[simp] theorem State.setI_reg (w : Word) (q : Reg) : (s.setI w).reg q = s.reg q := rfl
@[simp] theorem State.setI_key (w : Word) (k : Key) : (s.setI w).key k = s.key k := rfl
@[simp] theorem State.setI_cell (w : Word) (idx : Nat) : (s.setI w).cell idx = s.cell idx := rfl
@[simp] theorem State.setI_peek (w : Word) (c : Nat) : (s.setI w).peek c = s.peek c := rfl
@[simp] theorem State.setI_sp (w : Word) : (s.setI w).sp = s.sp := rfl

/-! ### setDt -/

@[simp] theorem State.setDt_v (b : Byte) : (s.setDt b).v = s.v := rfl
@[simp] theorem State.setDt_i (b : Byte) : (s.setDt b).i = s.i := rfl
@[simp] theorem State.setDt_pc (b : Byte) : (s.setDt b).pc = s.pc := rfl
@[simp] theorem State.setDt_stack (b : Byte) : (s.setDt b).stack = s.stack := rfl
@[simp] theorem State.setDt_dt (b : Byte) : (s.setDt b).dt = b := rfl
@[simp] theorem State.setDt_st (b : Byte) : (s.setDt b).st = s.st := rfl
@[simp] theorem State.setDt_wait (b : Byte) : (s.setDt b).wait = s.wait := rfl
@[simp] theorem State.setDt_keys (b : Byte) : (s.setDt b).keys = s.keys := rfl
@[simp] theorem State.setDt_fb (b : Byte) : (s.setDt b).fb = s.fb := rfl
@[simp] theorem State.setDt_mem (b : Byte) : (s.setDt b).mem = s.mem := rfl
@[simp] theorem State.setDt_out (b : Byte) : (s.setDt b).out = s.out := rfl
@[simp] theorem State.setDt_inputs (b : Byte) : (s.setDt b).inputs = s.inputs := rfl
@[simp] theorem State.setDt_rndDraws (b : Byte) : (s.setDt b).rndDraws = s.rndDraws := rfl
@[simp] theorem State.setDt_tickDraws (b : Byte) : (s.setDt b).tickDraws = s.tickDraws := rfl
@[simp] theorem State.setDt_reg (b : Byte) (q : Reg) : (s.setDt b).reg q = s.reg q := rfl
@[simp] theorem State.setDt_key (b : Byte) (k : Key) : (s.setDt b).key k = s.key k := rfl
@[simp] theorem State.setDt_cell (b : Byte) (idx : Nat) : (s.setDt b).cell idx = s.cell idx := rfl
@[simp] theorem State.setDt_peek (b : Byte) (c : Nat) : (s.setDt b).peek c = s.peek c := rfl
@[simp] theorem State.setDt_ea (b : Byte) (c : Nat) : (s.setDt b).ea c = s.ea c := rfl
@[simp] theorem State.setDt_sp (b : Byte) : (s.setDt b).sp = s.sp := rfl

/-! ### setSt -/

@[simp] theorem State.setSt_v (b : Byte) : (s.setSt b).v = s.v := rfl
@[simp] theorem State.setSt_i (b : Byte) : (s.setSt b).i = s.i := rfl
@[simp] theorem State.setSt_pc (b : Byte) : (s.setSt b).pc = s.pc := rfl
@[simp] theorem State.setSt_stack (b : Byte) : (s.setSt b).stack = s.stack := rfl
@[simp] theorem State.setSt_dt (b : Byte) : (s.setSt b).dt = s.dt := rfl
@[simp] theorem State.setSt_st (b : Byte) : (s.setSt b).st = b := rfl
@[simp] theorem State.setSt_wait (b : Byte) : (s.setSt b).wait = s.wait := rfl
@[simp] theorem State.setSt_keys (b : Byte) : (s.setSt b).keys = s.keys := rfl
@[simp] theorem State.setSt_fb (b : Byte) : (s.setSt b).fb = s.fb := rfl
@[simp] theorem State.setSt_mem (b : Byte) : (s.setSt b).mem = s.mem := rfl
@[simp] theorem State.setSt_out (b : Byte) : (s.setSt b).out = s.out := rfl
@[simp] theorem State.setSt_inputs (b : Byte) : (s.setSt b).inputs = s.inputs := rfl
@[simp] theorem State.setSt_rndDraws (b : Byte) : (s.setSt b).rndDraws = s.rndDraws := rfl
@[simp] theorem State.setSt_tickDraws (b : Byte) : (s.setSt b).tickDraws = s.tickDraws := rfl
@[simp] theorem State.setSt_reg (b : Byte) (q : Reg) : (s.setSt b).reg q = s.reg q := rfl
@[simp] theorem State.setSt_key (b : Byte) (k : Key) : (s.setSt b).key k = s.key k := rfl
@[simp] theorem State.setSt_cell (b : Byte) (idx : Nat) : (s.setSt b).cell idx = s.cell idx := rfl
@[simp] theorem State.setSt_peek (b : Byte) (c : Nat) : (s.setSt b).peek c = s.peek c := rfl
@[simp] theorem State.setSt_ea (b : Byte) (c : Nat) : (s.setSt b).ea c = s.ea c := rfl
@[simp] theorem State.setSt_sp (b : Byte) : (s.setSt b).sp = s.sp := rfl

/-! ### setWait -/

@[simp] theorem State.setWait_v (d : Bool) : (s.setWait d).v = s.v := rfl
@[simp] theorem State.setWait_i (d : Bool) : (s.setWait d).i = s.i := rfl
@[simp] theorem State.setWait_pc (d : Bool) : (s.setWait d).pc = s.pc := rfl
@[simp] theorem State.setWait_stack (d : Bool) : (s.setWait d).stack = s.stack := rfl
@[simp] theorem State.setWait_dt (d : Bool) : (s.setWait d).dt = s.dt := rfl
@[simp] theorem State.setWait_st (d : Bool) : (s.setWait d).st = s.st := rfl
@[simp] theorem State.setWait_wait (d : Bool) : (s.setWait d).wait = d := rfl
@[simp] theorem State.setWait_keys (d : Bool) : (s.setWait d).keys = s.keys := rfl
@[simp] theorem State.setWait_fb (d : Bool) : (s.setWait d).fb = s.fb := rfl
@[simp] theorem State.setWait_mem (d : Bool) : (s.setWait d).mem = s.mem := rfl
@[simp] theorem State.setWait_out (d : Bool) : (s.setWait d).out = s.out := rfl
@[simp] theorem State.setWait_inputs (d : Bool) : (s.setWait d).inputs = s.inputs := rfl
@[simp] theorem State.setWait_rndDraws (d : Bool) : (s.setWait d).rndDraws = s.rndDraws := rfl
@[simp] theorem State.setWait_tickDraws (d : Bool) : (s.setWait d).tickDraws = s.tickDraws := rfl
@[simp] theorem State.setWait_reg (d : Bool) (q : Reg) : (s.setWait d).reg q = s.reg q := rfl
@[simp] theorem State.setWait_key (d : Bool) (k : Key) : (s.setWait d).key k = s.key k := rfl
@[simp] theorem State.setWait_cell (d : Bool) (idx : Nat) : (s.setWait d).cell idx = s.cell idx := rfl
@[simp] theorem State.setWait_peek (d : Bool) (c : Nat) : (s.setWait d).peek c = s.peek c := rfl
@[simp] theorem State.setWait_ea (d : Bool) (c : Nat) : (s.setWait d).ea c = s.ea c := rfl
@[simp] theorem State.setWait_sp (d : Bool) : (s.setWait d).sp = s.sp := rfl

/-! ### setFb -/

@[simp] theorem State.setFb_v (fb : Framebuffer) : (s.setFb fb).v = s.v := rfl
@[simp] theorem State.setFb_i (fb : Framebuffer) : (s.setFb fb).i = s.i := rfl
@[simp] theorem State.setFb_pc (fb : Framebuffer) : (s.setFb fb).pc = s.pc := rfl
@[simp] theorem State.setFb_stack (fb : Framebuffer) : (s.setFb fb).stack = s.stack := rfl
@[simp] theorem State.setFb_dt (fb : Framebuffer) : (s.setFb fb).dt = s.dt := rfl
@[simp] theorem State.setFb_st (fb : Framebuffer) : (s.setFb fb).st = s.st := rfl
@[simp] theorem State.setFb_wait (fb : Framebuffer) : (s.setFb fb).wait = s.wait := rfl
@[simp] theorem State.setFb_keys (fb : Framebuffer) : (s.setFb fb).keys = s.keys := rfl
@[simp] theorem State.setFb_fb (fb : Framebuffer) : (s.setFb fb).fb = fb := rfl
@[simp] theorem State.setFb_mem (fb : Framebuffer) : (s.setFb fb).mem = s.mem := rfl
@[simp] theorem State.setFb_out (fb : Framebuffer) : (s.setFb fb).out = s.out := rfl
@[simp] theorem State.setFb_inputs (fb : Framebuffer) : (s.setFb fb).inputs = s.inputs := rfl
@[simp] theorem State.setFb_rndDraws (fb : Framebuffer) : (s.setFb fb).rndDraws = s.rndDraws := rfl
@[simp] theorem State.setFb_tickDraws (fb : Framebuffer) : (s.setFb fb).tickDraws = s.tickDraws := rfl
@[simp] theorem State.setFb_reg (fb : Framebuffer) (q : Reg) : (s.setFb fb).reg q = s.reg q := rfl
@[simp] theorem State.setFb_key (fb : Framebuffer) (k : Key) : (s.setFb fb).key k = s.key k := rfl
@[simp] theorem State.setFb_peek (fb : Framebuffer) (c : Nat) : (s.setFb fb).peek c = s.peek c := rfl
@[simp] theorem State.setFb_ea (fb : Framebuffer) (c : Nat) : (s.setFb fb).ea c = s.ea c := rfl
@[simp] theorem State.setFb_sp (fb : Framebuffer) : (s.setFb fb).sp = s.sp := rfl

/-! ### setMem -/

@[simp] theorem State.setMem_v (m : Memory) : (s.setMem m).v = s.v := rfl
@[simp] theorem State.setMem_i (m : Memory) : (s.setMem m).i = s.i := rfl
@[simp] theorem State.setMem_pc (m : Memory) : (s.setMem m).pc = s.pc := rfl
@[simp] theorem State.setMem_stack (m : Memory) : (s.setMem m).stack = s.stack := rfl
@[simp] theorem State.setMem_dt (m : Memory) : (s.setMem m).dt = s.dt := rfl
@[simp] theorem State.setMem_st (m : Memory) : (s.setMem m).st = s.st := rfl
@[simp] theorem State.setMem_wait (m : Memory) : (s.setMem m).wait = s.wait := rfl
@[simp] theorem State.setMem_keys (m : Memory) : (s.setMem m).keys = s.keys := rfl
@[simp] theorem State.setMem_fb (m : Memory) : (s.setMem m).fb = s.fb := rfl
@[simp] theorem State.setMem_mem (m : Memory) : (s.setMem m).mem = m := rfl
@[simp] theorem State.setMem_out (m : Memory) : (s.setMem m).out = s.out := rfl
@[simp] theorem State.setMem_inputs (m : Memory) : (s.setMem m).inputs = s.inputs := rfl
@[simp] theorem State.setMem_rndDraws (m : Memory) : (s.setMem m).rndDraws = s.rndDraws := rfl
@[simp] theorem State.setMem_tickDraws (m : Memory) : (s.setMem m).tickDraws = s.tickDraws := rfl
@[simp] theorem State.setMem_reg (m : Memory) (q : Reg) : (s.setMem m).reg q = s.reg q := rfl
@[simp] theorem State.setMem_key (m : Memory) (k : Key) : (s.setMem m).key k = s.key k := rfl
@[simp] theorem State.setMem_cell (m : Memory) (idx : Nat) : (s.setMem m).cell idx = s.cell idx := rfl
@[simp] theorem State.setMem_ea (m : Memory) (c : Nat) : (s.setMem m).ea c = s.ea c := rfl
@[simp] theorem State.setMem_sp (m : Memory) : (s.setMem m).sp = s.sp := rfl

/-! ### setReg -/

@[simp] theorem State.setReg_v (r : Reg) (b : Byte) : (s.setReg r b).v = s.v.set r.toNat b r.isLt := rfl
@[simp] theorem State.setReg_i (r : Reg) (b : Byte) : (s.setReg r b).i = s.i := rfl
@[simp] theorem State.setReg_pc (r : Reg) (b : Byte) : (s.setReg r b).pc = s.pc := rfl
@[simp] theorem State.setReg_stack (r : Reg) (b : Byte) : (s.setReg r b).stack = s.stack := rfl
@[simp] theorem State.setReg_dt (r : Reg) (b : Byte) : (s.setReg r b).dt = s.dt := rfl
@[simp] theorem State.setReg_st (r : Reg) (b : Byte) : (s.setReg r b).st = s.st := rfl
@[simp] theorem State.setReg_wait (r : Reg) (b : Byte) : (s.setReg r b).wait = s.wait := rfl
@[simp] theorem State.setReg_keys (r : Reg) (b : Byte) : (s.setReg r b).keys = s.keys := rfl
@[simp] theorem State.setReg_fb (r : Reg) (b : Byte) : (s.setReg r b).fb = s.fb := rfl
@[simp] theorem State.setReg_mem (r : Reg) (b : Byte) : (s.setReg r b).mem = s.mem := rfl
@[simp] theorem State.setReg_out (r : Reg) (b : Byte) : (s.setReg r b).out = s.out := rfl
@[simp] theorem State.setReg_inputs (r : Reg) (b : Byte) : (s.setReg r b).inputs = s.inputs := rfl
@[simp] theorem State.setReg_rndDraws (r : Reg) (b : Byte) : (s.setReg r b).rndDraws = s.rndDraws := rfl
@[simp] theorem State.setReg_tickDraws (r : Reg) (b : Byte) : (s.setReg r b).tickDraws = s.tickDraws := rfl
@[simp] theorem State.setReg_key (r : Reg) (b : Byte) (k : Key) : (s.setReg r b).key k = s.key k := rfl
@[simp] theorem State.setReg_cell (r : Reg) (b : Byte) (idx : Nat) : (s.setReg r b).cell idx = s.cell idx := rfl
@[simp] theorem State.setReg_peek (r : Reg) (b : Byte) (c : Nat) : (s.setReg r b).peek c = s.peek c := rfl
@[simp] theorem State.setReg_ea (r : Reg) (b : Byte) (c : Nat) : (s.setReg r b).ea c = s.ea c := rfl
@[simp] theorem State.setReg_sp (r : Reg) (b : Byte) : (s.setReg r b).sp = s.sp := rfl

/-! ### setFlag -/

@[simp] theorem State.setFlag_i (f : Bool) : (s.setFlag f).i = s.i := rfl
@[simp] theorem State.setFlag_pc (f : Bool) : (s.setFlag f).pc = s.pc := rfl
@[simp] theorem State.setFlag_stack (f : Bool) : (s.setFlag f).stack = s.stack := rfl
@[simp] theorem State.setFlag_dt (f : Bool) : (s.setFlag f).dt = s.dt := rfl
@[simp] theorem State.setFlag_st (f : Bool) : (s.setFlag f).st = s.st := rfl
@[simp] theorem State.setFlag_wait (f : Bool) : (s.setFlag f).wait = s.wait := rfl
@[simp] theorem State.setFlag_keys (f : Bool) : (s.setFlag f).keys = s.keys := rfl
@[simp] theorem State.setFlag_fb (f : Bool) : (s.setFlag f).fb = s.fb := rfl
@[simp] theorem State.setFlag_mem (f : Bool) : (s.setFlag f).mem = s.mem := rfl
@[simp] theorem State.setFlag_out (f : Bool) : (s.setFlag f).out = s.out := rfl
@[simp] theorem State.setFlag_inputs (f : Bool) : (s.setFlag f).inputs = s.inputs := rfl
@[simp] theorem State.setFlag_rndDraws (f : Bool) : (s.setFlag f).rndDraws = s.rndDraws := rfl
@[simp] theorem State.setFlag_tickDraws (f : Bool) : (s.setFlag f).tickDraws = s.tickDraws := rfl
@[simp] theorem State.setFlag_key (f : Bool) (k : Key) : (s.setFlag f).key k = s.key k := rfl
@[simp] theorem State.setFlag_cell (f : Bool) (idx : Nat) : (s.setFlag f).cell idx = s.cell idx := rfl
@[simp] theorem State.setFlag_peek (f : Bool) (c : Nat) : (s.setFlag f).peek c = s.peek c := rfl
@[simp] theorem State.setFlag_ea (f : Bool) (c : Nat) : (s.setFlag f).ea c = s.ea c := rfl
@[simp] theorem State.setFlag_sp (f : Bool) : (s.setFlag f).sp = s.sp := rfl

/-! ### setResult -/

@[simp] theorem State.setResult_i (x : Reg) (b : Byte) (f : Bool) : (s.setResult x b f).i = s.i := rfl
@[simp] theorem State.setResult_pc (x : Reg) (b : Byte) (f : Bool) : (s.setResult x b f).pc = s.pc := rfl
@[simp] theorem State.setResult_stack (x : Reg) (b : Byte) (f : Bool) : (s.setResult x b f).stack = s.stack := rfl
@[simp] theorem State.setResult_dt (x : Reg) (b : Byte) (f : Bool) : (s.setResult x b f).dt = s.dt := rfl
@[simp] theorem State.setResult_st (x : Reg) (b : Byte) (f : Bool) : (s.setResult x b f).st = s.st := rfl
@[simp] theorem State.setResult_wait (x : Reg) (b : Byte) (f : Bool) : (s.setResult x b f).wait = s.wait := rfl
@[simp] theorem State.setResult_keys (x : Reg) (b : Byte) (f : Bool) : (s.setResult x b f).keys = s.keys := rfl
@[simp] theorem State.setResult_fb (x : Reg) (b : Byte) (f : Bool) : (s.setResult x b f).fb = s.fb := rfl
@[simp] theorem State.setResult_mem (x : Reg) (b : Byte) (f : Bool) : (s.setResult x b f).mem = s.mem := rfl
@[simp] theorem State.setResult_out (x : Reg) (b : Byte) (f : Bool) : (s.setResult x b f).out = s.out := rfl
@[simp] theorem State.setResult_inputs (x : Reg) (b : Byte) (f : Bool) : (s.setResult x b f).inputs = s.inputs := rfl
@[simp] theorem State.setResult_rndDraws (x : Reg) (b : Byte) (f : Bool) : (s.setResult x b f).rndDraws = s.rndDraws := rfl
@[simp] theorem State.setResult_tickDraws (x : Reg) (b : Byte) (f : Bool) : (s.setResult x b f).tickDraws = s.tickDraws := rfl
@[simp] theorem State.setResult_key (x : Reg) (b : Byte) (f : Bool) (k : Key) : (s.setResult x b f).key k = s.key k := rfl
@[simp] theorem State.setResult_cell (x : Reg) (b : Byte) (f : Bool) (idx : Nat) : (s.setResult x b f).cell idx = s.cell idx := rfl
@[simp] theorem State.setResult_peek (x : Reg) (b : Byte) (f : Bool) (c : Nat) : (s.setResult x b f).peek c = s.peek c := rfl
@[simp] theorem State.setResult_ea (x : Reg) (b : Byte) (f : Bool) (c : Nat) : (s.setResult x b f).ea c = s.ea c := rfl
@[simp] theorem State.setResult_sp (x : Reg) (b : Byte) (f : Bool) : (s.setResult x b f).sp = s.sp := rfl

/-! ### push -/

@[simp] theorem State.push_v (w : Word) : (s.push w).v = s.v := rfl
@[simp] theorem State.push_i (w : Word) : (s.push w).i = s.i := rfl
@[simp] theorem State.push_pc (w : Word) : (s.push w).pc = s.pc := rfl
@[simp] theorem State.push_stack (w : Word) : (s.push w).stack = s.stack ++ [w] := rfl
@[simp] theorem State.push_dt (w : Word) : (s.push w).dt = s.dt := rfl
@[simp] theorem State.push_st (w : Word) : (s.push w).st = s.st := rfl
@[simp] theorem State.push_wait (w : Word) : (s.push w).wait = s.wait := rfl
@[simp] theorem State.push_keys (w : Word) : (s.push w).keys = s.keys := rfl
@[simp] theorem State.push_fb (w : Word) : (s.push w).fb = s.fb := rfl
@[simp] theorem State.push_mem (w : Word) : (s.push w).mem = s.mem := rfl
@[simp] theorem State.push_out (w : Word) : (s.push w).out = s.out := rfl
@[simp] theorem State.push_inputs (w : Word) : (s.push w).inputs = s.inputs := rfl
@[simp] theorem State.push_rndDraws (w : Word) : (s.push w).rndDraws = s.rndDraws := rfl
@[simp] theorem State.push_tickDraws (w : Word) : (s.push w).tickDraws = s.tickDraws := rfl
@[simp] theorem State.push_reg (w : Word) (q : Reg) : (s.push w).reg q = s.reg q := rfl
@[simp] theorem State.push_key (w : Word) (k : Key) : (s.push w).key k = s.key k := rfl
@[simp] theorem State.push_cell (w : Word) (idx : Nat) : (s.push w).cell idx = s.cell idx := rfl
@[simp] theorem State.push_peek (w : Word) (c : Nat) : (s.push w).peek c = s.peek c := rfl
@[simp] theorem State.push_ea (w : Word) (c : Nat) : (s.push w).ea c = s.ea c := rfl

/-! ### dropTop -/

@[simp] theorem State.dropTop_v : (s.dropTop).v = s.v := rfl
@[simp] theorem State.dropTop_i : (s.dropTop).i = s.i := rfl
@[simp] theorem State.dropTop_pc : (s.dropTop).pc = s.pc := rfl
@[simp] theorem State.dropTop_stack : (s.dropTop).stack = s.stack.dropLast := rfl
@[simp] theorem State.dropTop_dt : (s.dropTop).dt = s.dt := rfl
@[simp] theorem State.dropTop_st : (s.dropTop).st = s.st := rfl
@[simp] theorem State.dropTop_wait : (s.dropTop).wait = s.wait := rfl
@[simp] theorem State.dropTop_keys : (s.dropTop).keys = s.keys := rfl
@[simp] theorem State.dropTop_fb : (s.dropTop).fb = s.fb := rfl
@[simp] theorem State.dropTop_mem : (s.dropTop).mem = s.mem := rfl
@[simp] theorem State.dropTop_out : (s.dropTop).out = s.out := rfl
@[simp] theorem State.dropTop_inputs : (s.dropTop).inputs = s.inputs := rfl
@[simp] theorem State.dropTop_rndDraws : (s.dropTop).rndDraws = s.rndDraws := rfl
@[simp] theorem State.dropTop_tickDraws : (s.dropTop).tickDraws = s.tickDraws := rfl
@[simp] theorem State.dropTop_reg (q : Reg) : (s.dropTop).reg q = s.reg q := rfl
@[simp] theorem State.dropTop_key (k : Key) : (s.dropTop).key k = s.key k := rfl
@[simp] theorem State.dropTop_cell (idx : Nat) : (s.dropTop).cell idx = s.cell idx := rfl
@[simp] theorem State.dropTop_peek (c : Nat) : (s.dropTop).peek c = s.peek c := rfl
@[simp] theorem State.dropTop_ea (c : Nat) : (s.dropTop).ea c = s.ea c := rfl

/-! ### raiseFault -/

@[simp] theorem State.raiseFault_v (f : Fault) : (s.raiseFault f).v = s.v := rfl
@[simp] theorem State.raiseFault_i (f : Fault) : (s.raiseFault f).i = s.i := rfl
@[simp] theorem State.raiseFault_pc (f : Fault) : (s.raiseFault f).pc = s.pc - 2 := rfl
@[simp] theorem State.raiseFault_stack (f : Fault) : (s.raiseFault f).stack = s.stack := rfl
@[simp] theorem State.raiseFault_dt (f : Fault) : (s.raiseFault f).dt = s.dt := rfl
@[simp] theorem State.raiseFault_st (f : Fault) : (s.raiseFault f).st = s.st := rfl
@[simp] theorem State.raiseFault_wait (f : Fault) : (s.raiseFault f).wait = s.wait := rfl
@[simp] theorem State.raiseFault_keys (f : Fault) : (s.raiseFault f).keys = s.keys := rfl
@[simp] theorem State.raiseFault_fb (f : Fault) : (s.raiseFault f).fb = s.fb := rfl
@[simp] theorem State.raiseFault_mem (f : Fault) : (s.raiseFault f).mem = s.mem := rfl
@[simp] theorem State.raiseFault_out (f : Fault) : (s.raiseFault f).out = { s.out with fault := some f } := rfl
@[simp] theorem State.raiseFault_inputs (f : Fault) : (s.raiseFault f).inputs = s.inputs := rfl
@[simp] theorem State.raiseFault_rndDraws (f : Fault) : (s.raiseFault f).rndDraws = s.rndDraws := rfl
@[simp] theorem State.raiseFault_tickDraws (f : Fault) : (s.raiseFault f).tickDraws = s.tickDraws := rfl
@[simp] theorem State.raiseFault_reg (f : Fault) (q : Reg) : (s.raiseFault f).reg q = s.reg q := rfl
@[simp] theorem State.raiseFault_key (f : Fault) (k : Key) : (s.raiseFault f).key k = s.key k := rfl
@[simp] theorem State.raiseFault_cell (f : Fault) (idx : Nat) : (s.raiseFault f).cell idx = s.cell idx := rfl
@[simp] theorem State.raiseFault_peek (f : Fault) (c : Nat) : (s.raiseFault f).peek c = s.peek c := rfl
@[simp] theorem State.raiseFault_ea (f : Fault) (c : Nat) : (s.raiseFault f).ea c = s.ea c := rfl
@[simp] theorem State.raiseFault_sp (f : Fault) : (s.raiseFault f).sp = s.sp := rfl

/-! ### warnUnknown -/

@[simp] theorem State.warnUnknown_v : (s.warnUnknown).v = s.v := rfl
@[simp] theorem State.warnUnknown_i : (s.warnUnknown).i = s.i := rfl
@[simp] theorem State.warnUnknown_pc : (s.warnUnknown).pc = s.pc := rfl
@[simp] theorem State.warnUnknown_stack : (s.warnUnknown).stack = s.stack := rfl
@[simp] theorem State.warnUnknown_dt : (s.warnUnknown).dt = s.dt := rfl
@[simp] theorem State.warnUnknown_st : (s.warnUnknown).st = s.st := rfl
@[simp] theorem State.warnUnknown_wait : (s.warnUnknown).wait = s.wait := rfl
@[simp] theorem State.warnUnknown_keys : (s.warnUnknown).keys = s.keys := rfl
@[simp] theorem State.warnUnknown_fb : (s.warnUnknown).fb = s.fb := rfl
@[simp] theorem State.warnUnknown_mem : (s.warnUnknown).mem = s.mem := rfl
@[simp] theorem State.warnUnknown_out : (s.warnUnknown).out = { s.out with unknownOpcode := true } := rfl
@[simp] theorem State.warnUnknown_inputs : (s.warnUnknown).inputs = s.inputs := rfl
@[simp] theorem State.warnUnknown_rndDraws : (s.warnUnknown).rndDraws = s.rndDraws := rfl
@[simp] theorem State.warnUnknown_tickDraws : (s.warnUnknown).tickDraws = s.tickDraws := rfl
@[simp] theorem State.warnUnknown_reg (q : Reg) : (s.warnUnknown).reg q = s.reg q := rfl
@[simp] theorem State.warnUnknown_key (k : Key) : (s.warnUnknown).key k = s.key k := rfl
@[simp] theorem State.warnUnknown_cell (idx : Nat) : (s.warnUnknown).cell idx = s.cell idx := rfl
@[simp] theorem State.warnUnknown_peek (c : Nat) : (s.warnUnknown).peek c = s.peek c := rfl
@[simp] theorem State.warnUnknown_ea (c : Nat) : (s.warnUnknown).ea c = s.ea c := rfl
@[simp] theorem State.warnUnknown_sp : (s.warnUnknown).sp = s.sp := rfl

/-! ### noteAccess -/

@[simp] theorem State.noteAccess_v (a n : Nat) : (s.noteAccess a n).v = s.v := rfl
@[simp] theorem State.noteAccess_i (a n : Nat) : (s.noteAccess a n).i = s.i := rfl
@[simp] theorem State.noteAccess_pc (a n : Nat) : (s.noteAccess a n).pc = s.pc := rfl
@[simp] theorem State.noteAccess_stack (a n : Nat) : (s.noteAccess a n).stack = s.stack := rfl
@[simp] theorem State.noteAccess_dt (a n : Nat) : (s.noteAccess a n).dt = s.dt := rfl
@[simp] theorem State.noteAccess_st (a n : Nat) : (s.noteAccess a n).st = s.st := rfl
@[simp] theorem State.noteAccess_wait (a n : Nat) : (s.noteAccess a n).wait = s.wait := rfl
@[simp] theorem State.noteAccess_keys (a n : Nat) : (s.noteAccess a n).keys = s.keys := rfl
@[simp] theorem State.noteAccess_fb (a n : Nat) : (s.noteAccess a n).fb = s.fb := rfl
@[simp] theorem State.noteAccess_mem (a n : Nat) : (s.noteAccess a n).mem = s.mem := rfl
@[simp] theorem State.noteAccess_out (a n : Nat) : (s.noteAccess a n).out = { s.out with memOob := s.out.memOob || oobIn a n } := rfl
@[simp] theorem State.noteAccess_inputs (a n : Nat) : (s.noteAccess a n).inputs = s.inputs := rfl
@[simp] theorem State.noteAccess_rndDraws (a n : Nat) : (s.noteAccess a n).rndDraws = s.rndDraws := rfl
@[simp] theorem State.noteAccess_tickDraws (a n : Nat) : (s.noteAccess a n).tickDraws = s.tickDraws := rfl
@[simp] theorem State.noteAccess_reg (a n : Nat) (q : Reg) : (s.noteAccess a n).reg q = s.reg q := rfl
@[simp] theorem State.noteAccess_key (a n : Nat) (k : Key) : (s.noteAccess a n).key k = s.key k := rfl
@[simp] theorem State.noteAccess_cell (a n : Nat) (idx : Nat) : (s.noteAccess a n).cell idx = s.cell idx := rfl
@[simp] theorem State.noteAccess_peek (a n : Nat) (c : Nat) : (s.noteAccess a n).peek c = s.peek c := rfl
@[simp] theorem State.noteAccess_ea (a n : Nat) (c : Nat) : (s.noteAccess a n).ea c = s.ea c := rfl
@[simp] theorem State.noteAccess_sp (a n : Nat) : (s.noteAccess a n).sp = s.sp := rfl

/-! ### storeBytes -/

@[simp] theorem State.storeBytes_v (a : Nat) (bs : List Byte) : (s.storeBytes a bs).v = s.v := rfl
@[simp] theorem State.storeBytes_i (a : Nat) (bs : List Byte) : (s.storeBytes a bs).i = s.i := rfl
@[simp] theorem State.storeBytes_pc (a : Nat) (bs : List Byte) : (s.storeBytes a bs).pc = s.pc := rfl
@[simp] theorem State.storeBytes_stack (a : Nat) (bs : List Byte) : (s.storeBytes a bs).stack = s.stack := rfl
@[simp] theorem State.storeBytes_dt (a : Nat) (bs : List Byte) : (s.storeBytes a bs).dt = s.dt := rfl
@[simp] theorem State.storeBytes_st (a : Nat) (bs : List Byte) : (s.storeBytes a bs).st = s.st := rfl
@[simp] theorem State.storeBytes_wait (a : Nat) (bs : List Byte) : (s.storeBytes a bs).wait = s.wait := rfl
@[simp] theorem State.storeBytes_keys (a : Nat) (bs : List Byte) : (s.storeBytes a bs).keys = s.keys := rfl
@[simp] theorem State.storeBytes_fb (a : Nat) (bs : List Byte) : (s.storeBytes a bs).fb = s.fb := rfl
@[simp] theorem State.storeBytes_mem (a : Nat) (bs : List Byte) : (s.storeBytes a bs).mem = memWriteAll s.mem a bs := rfl
@[simp] theorem State.storeBytes_out (a : Nat) (bs : List Byte) : (s.storeBytes a bs).out = { s.out with memOob := s.out.memOob || oobIn a bs.length } := rfl
@[simp] theorem State.storeBytes_inputs (a : Nat) (bs : List Byte) : (s.storeBytes a bs).inputs = s.inputs := rfl
@[simp] theorem State.storeBytes_rndDraws (a : Nat) (bs : List Byte) : (s.storeBytes a bs).rndDraws = s.rndDraws := rfl
@[simp] theorem State.storeBytes_tickDraws (a : Nat) (bs : List Byte) : (s.storeBytes a bs).tickDraws = s.tickDraws := rfl
@[simp] theorem State.storeBytes_reg (a : Nat) (bs : List Byte) (q : Reg) : (s.storeBytes a bs).reg q = s.reg q := rfl
@[simp] theorem State.storeBytes_key (a : Nat) (bs : List Byte) (k : Key) : (s.storeBytes a bs).key k = s.key k := rfl
@[simp] theorem State.storeBytes_cell (a : Nat) (bs : List Byte) (idx : Nat) : (s.storeBytes a bs).cell idx = s.cell idx := rfl
@[simp] theorem State.storeBytes_ea (a : Nat) (bs : List Byte) (c : Nat) : (s.storeBytes a bs).ea c = s.ea c := rfl
@[simp] theorem State.storeBytes_sp (a : Nat) (bs : List Byte) : (s.storeBytes a bs).sp = s.sp := rfl

/-! ### advance -/

@[simp] theorem State.advance_v : (s.advance).v = s.v := rfl
@[simp] theorem State.advance_i : (s.advance).i = s.i := rfl
@[simp] theorem State.advance_pc : (s.advance).pc = s.pc + 2 := rfl
@[simp] theorem State.advance_stack : (s.advance).stack = s.stack := rfl
@[simp] theorem State.advance_dt : (s.advance).dt = s.dt := rfl
@[simp] theorem State.advance_st : (s.advance).st = s.st := rfl
@[simp] theorem State.advance_wait : (s.advance).wait = s.wait := rfl
@[simp] theorem State.advance_keys : (s.advance).keys = s.keys := rfl
@[simp] theorem State.advance_fb : (s.advance).fb = s.fb := rfl
@[simp] theorem State.advance_mem : (s.advance).mem = s.mem := rfl
@[simp] theorem State.advance_out : (s.advance).out = { s.out with memOob := s.out.memOob || oobIn s.pc.toNat 2 } := rfl
@[simp] theorem State.advance_inputs : (s.advance).inputs = s.inputs := rfl
@[simp] theorem State.advance_rndDraws : (s.advance).rndDraws = s.rndDraws := rfl
@[simp] theorem State.advance_tickDraws : (s.advance).tickDraws = s.tickDraws := rfl
@[simp] theorem State.advance_reg (q : Reg) : (s.advance).reg q = s.reg q := rfl
@[simp] theorem State.advance_key (k : Key) : (s.advance).key k = s.key k := rfl
@[simp] theorem State.advance_cell (idx : Nat) : (s.advance).cell idx = s.cell idx := rfl
@[simp] theorem State.advance_peek (c : Nat) : (s.advance).peek c = s.peek c := rfl
@[simp] theorem State.advance_ea (c : Nat) : (s.advance).ea c = s.ea c := rfl
@[simp] theorem State.advance_sp : (s.advance).sp = s.sp := rfl

/-! ### setKey -/

@[simp] theorem State.setKey_v (k : Key) (d : Bool) : (s.setKey k d).v = s.v := rfl
@[simp] theorem State.setKey_i (k : Key) (d : Bool) : (s.setKey k d).i = s.i := rfl
@[simp] theorem State.setKey_pc (k : Key) (d : Bool) : (s.setKey k d).pc = s.pc := rfl
@[simp] theorem State.setKey_stack (k : Key) (d : Bool) : (s.setKey k d).stack = s.stack := rfl
@[simp] theorem State.setKey_dt (k : Key) (d : Bool) : (s.setKey k d).dt = s.dt := rfl
@[simp] theorem State.setKey_st (k : Key) (d : Bool) : (s.setKey k d).st = s.st := rfl
@[simp] theorem State.setKey_wait (k : Key) (d : Bool) : (s.setKey k d).wait = s.wait := rfl
@[simp] theorem State.setKey_keys (k : Key) (d : Bool) : (s.setKey k d).keys = s.keys.set k.toNat d k.isLt := rfl
@[simp] theorem State.setKey_fb (k : Key) (d : Bool) : (s.setKey k d).fb = s.fb := rfl
@[simp] theorem State.setKey_mem (k : Key) (d : Bool) : (s.setKey k d).mem = s.mem := rfl
@[simp] theorem State.setKey_out (k : Key) (d : Bool) : (s.setKey k d).out = s.out := rfl
@[simp] theorem State.setKey_inputs (k : Key) (d : Bool) : (s.setKey k d).inputs = s.inputs := rfl
@[simp] theorem State.setKey_rndDraws (k : Key) (d : Bool) : (s.setKey k d).rndDraws = s.rndDraws := rfl
@[simp] theorem State.setKey_tickDraws (k : Key) (d : Bool) : (s.setKey k d).tickDraws = s.tickDraws := rfl
@[simp] theorem State.setKey_reg (k : Key) (d : Bool) (q : Reg) : (s.setKey k d).reg q = s.reg q := rfl
@[simp] theorem State.setKey_cell (k : Key) (d : Bool) (idx : Nat) : (s.setKey k d).cell idx = s.cell idx := rfl
@[simp] theorem State.setKey_peek (k : Key) (d : Bool) (c : Nat) : (s.setKey k d).peek c = s.peek c := rfl
@[simp] theorem State.setKey_ea (k : Key) (d : Bool) (c : Nat) : (s.setKey k d).ea c = s.ea c := rfl
@[simp] theorem State.setKey_sp (k : Key) (d : Bool) : (s.setKey k d).sp = s.sp := rfl

/-! ### drawRnd -/

@[simp] theorem State.drawRnd_v : (s.drawRnd).v = s.v := rfl
@[simp] theorem State.drawRnd_i : (s.drawRnd).i = s.i := rfl
@[simp] theorem State.drawRnd_pc : (s.drawRnd).pc = s.pc := rfl
@[simp] theorem State.drawRnd_stack : (s.drawRnd).stack = s.stack := rfl
@[simp] theorem State.drawRnd_dt : (s.drawRnd).dt = s.dt := rfl
@[simp] theorem State.drawRnd_st : (s.drawRnd).st = s.st := rfl
@[simp] theorem State.drawRnd_wait : (s.drawRnd).wait = s.wait := rfl
@[simp] theorem State.drawRnd_keys : (s.drawRnd).keys = s.keys := rfl
@[simp] theorem State.drawRnd_fb : (s.drawRnd).fb = s.fb := rfl
@[simp] theorem State.drawRnd_mem : (s.drawRnd).mem = s.mem := rfl
@[simp] theorem State.drawRnd_out : (s.drawRnd).out = s.out := rfl
@[simp] theorem State.drawRnd_inputs : (s.drawRnd).inputs = s.inputs := rfl
@[simp] theorem State.drawRnd_rndDraws : (s.drawRnd).rndDraws = s.rndDraws + 1 := rfl
@[simp] theorem State.drawRnd_tickDraws : (s.drawRnd).tickDraws = s.tickDraws := rfl
@[simp] theorem State.drawRnd_reg (q : Reg) : (s.drawRnd).reg q = s.reg q := rfl
@[simp] theorem State.drawRnd_key (k : Key) : (s.drawRnd).key k = s.key k := rfl
@[simp] theorem State.drawRnd_cell (idx : Nat) : (s.drawRnd).cell idx = s.cell idx := rfl
@[simp] theorem State.drawRnd_peek (c : Nat) : (s.drawRnd).peek c = s.peek c := rfl
@[simp] theorem State.drawRnd_ea (c : Nat) : (s.drawRnd).ea c = s.ea c := rfl
@[simp] theorem State.drawRnd_sp : (s.drawRnd).sp = s.sp := rfl

/-! ### timerPhase -/

@[simp] theorem State.timerPhase_v (d : Bool) : (s.timerPhase d).v = s.v := rfl
@[simp] theorem State.timerPhase_i (d : Bool) : (s.timerPhase d).i = s.i := rfl
@[simp] theorem State.timerPhase_pc (d : Bool) : (s.timerPhase d).pc = s.pc := rfl
@[simp] theorem State.timerPhase_stack (d : Bool) : (s.timerPhase d).stack = s.stack := rfl
@[simp] theorem State.timerPhase_dt (d : Bool) : (s.timerPhase d).dt = countDown d s.dt := rfl
@[simp] theorem State.timerPhase_st (d : Bool) : (s.timerPhase d).st = countDown d s.st := rfl
@[simp] theorem State.timerPhase_wait (d : Bool) : (s.timerPhase d).wait = s.wait := rfl
@[simp] theorem State.timerPhase_keys (d : Bool) : (s.timerPhase d).keys = s.keys := rfl
@[simp] theorem State.timerPhase_fb (d : Bool) : (s.timerPhase d).fb = s.fb := rfl
@[simp] theorem State.timerPhase_mem (d : Bool) : (s.timerPhase d).mem = s.mem := rfl
@[simp] theorem State.timerPhase_out (d : Bool) : (s.timerPhase d).out = { s.out with beep := if s.st = 1 then d else false } := rfl
@[simp] theorem State.timerPhase_inputs (d : Bool) : (s.timerPhase d).inputs = s.inputs := rfl
@[simp] theorem State.timerPhase_rndDraws (d : Bool) : (s.timerPhase d).rndDraws = s.rndDraws := rfl
@[simp] theorem State.timerPhase_tickDraws (d : Bool) : (s.timerPhase d).tickDraws = s.tickDraws := rfl
@[simp] theorem State.timerPhase_reg (d : Bool) (q : Reg) : (s.timerPhase d).reg q = s.reg q := rfl
@[simp] theorem State.timerPhase_key (d : Bool) (k : Key) : (s.timerPhase d).key k = s.key k := rfl
@[simp] theorem State.timerPhase_cell (d : Bool) (idx : Nat) : (s.timerPhase d).cell idx = s.cell idx := rfl
@[simp] theorem State.timerPhase_peek (d : Bool) (c : Nat) : (s.timerPhase d).peek c = s.peek c := rfl
@[simp] theorem State.timerPhase_ea (d : Bool) (c : Nat) : (s.timerPhase d).ea c = s.ea c := rfl
@[simp] theorem State.timerPhase_sp (d : Bool) : (s.timerPhase d).sp = s.sp := rfl

/-! ### beginStep -/

@[simp] theorem State.beginStep_v : (s.beginStep).v = s.v := rfl
@[simp] theorem State.beginStep_i : (s.beginStep).i = s.i := rfl
@[simp] theorem State.beginStep_pc : (s.beginStep).pc = s.pc := rfl
@[simp] theorem State.beginStep_stack : (s.beginStep).stack = s.stack := rfl
@[simp] theorem State.beginStep_dt : (s.beginStep).dt = s.dt := rfl
@[simp] theorem State.beginStep_st : (s.beginStep).st = s.st := rfl
@[simp] theorem State.beginStep_wait : (s.beginStep).wait = s.wait := rfl
@[simp] theorem State.beginStep_keys : (s.beginStep).keys = s.keys := rfl
@[simp] theorem State.beginStep_fb : (s.beginStep).fb = s.fb := rfl
@[simp] theorem State.beginStep_mem : (s.beginStep).mem = s.mem := rfl
@[simp] theorem State.beginStep_out : (s.beginStep).out = StepRecord.clear := rfl
@[simp] theorem State.beginStep_inputs : (s.beginStep).inputs = s.inputs := rfl
@[simp] theorem State.beginStep_rndDraws : (s.beginStep).rndDraws = s.rndDraws := rfl
@[simp] theorem State.beginStep_tickDraws : (s.beginStep).tickDraws = s.tickDraws := rfl
@[simp] theorem State.beginStep_reg (q : Reg) : (s.beginStep).reg q = s.reg q := rfl
@[simp] theorem State.beginStep_key (k : Key) : (s.beginStep).key k = s.key k := rfl
@[simp] theorem State.beginStep_cell (idx : Nat) : (s.beginStep).cell idx = s.cell idx := rfl
@[simp] theorem State.beginStep_peek (c : Nat) : (s.beginStep).peek c = s.peek c := rfl
@[simp] theorem State.beginStep_ea (c : Nat) : (s.beginStep).ea c = s.ea c := rfl
@[simp] theorem State.beginStep_sp : (s.beginStep).sp = s.sp := rfl

/-! ### endStep -/

@[simp] theorem State.endStep_v : (s.endStep).v = s.v := rfl
@[simp] theorem State.endStep_i : (s.endStep).i = s.i := rfl
@[simp] theorem State.endStep_pc : (s.endStep).pc = s.pc := rfl
@[simp] theorem State.endStep_stack : (s.endStep).stack = s.stack := rfl
@[simp] theorem State.endStep_dt : (s.endStep).dt = s.dt := rfl
@[simp] theorem State.endStep_st : (s.endStep).st = s.st := rfl
@[simp] theorem State.endStep_wait : (s.endStep).wait = s.wait := rfl
@[simp] theorem State.endStep_keys : (s.endStep).keys = s.keys := rfl
@[simp] theorem State.endStep_fb : (s.endStep).fb = s.fb := rfl
@[simp] theorem State.endStep_mem : (s.endStep).mem = s.mem := rfl
@[simp] theorem State.endStep_out : (s.endStep).out = s.out := rfl
@[simp] theorem State.endStep_inputs : (s.endStep).inputs = StepInputs.free := rfl
@[simp] theorem State.endStep_rndDraws : (s.endStep).rndDraws = s.rndDraws := rfl
@[simp] theorem State.endStep_tickDraws : (s.endStep).tickDraws = s.tickDraws + 1 := rfl
@[simp] theorem State.endStep_reg (q : Reg) : (s.endStep).reg q = s.reg q := rfl
@[simp] theorem State.endStep_key (k : Key) : (s.endStep).key k = s.key k := rfl
@[simp] theorem State.endStep_cell (idx : Nat) : (s.endStep).cell idx = s.cell idx := rfl
@[simp] theorem State.endStep_peek (c : Nat) : (s.endStep).peek c = s.peek c := rfl
@[simp] theorem State.endStep_ea (c : Nat) : (s.endStep).ea c = s.ea c := rfl
@[simp] theorem State.endStep_sp : (s.endStep).sp = s.sp := rfl

/-! ### finishStep -/

@[simp] theorem State.finishStep_v : (s.finishStep).v = s.v := rfl
@[simp] theorem State.finishStep_i : (s.finishStep).i = s.i := rfl
@[simp] theorem State.finishStep_pc : (s.finishStep).pc = s.pc := rfl
@[simp] theorem State.finishStep_stack : (s.finishStep).stack = s.stack := rfl
@[simp] theorem State.finishStep_dt : (s.finishStep).dt = countDown s.tickValue s.dt := rfl
@[simp] theorem State.finishStep_st : (s.finishStep).st = countDown s.tickValue s.st := rfl
@[simp] theorem State.finishStep_wait : (s.finishStep).wait = s.wait := rfl
@[simp] theorem State.finishStep_keys : (s.finishStep).keys = s.keys := rfl
@[simp] theorem State.finishStep_fb : (s.finishStep).fb = s.fb := rfl
@[simp] theorem State.finishStep_mem : (s.finishStep).mem = s.mem := rfl
@[simp] theorem State.finishStep_out : (s.finishStep).out = { s.out with beep := if s.st = 1 then s.tickValue else false } := rfl
@[simp] theorem State.finishStep_inputs : (s.finishStep).inputs = StepInputs.free := rfl
@[simp] theorem State.finishStep_rndDraws : (s.finishStep).rndDraws = s.rndDraws := rfl
@[simp] theorem State.finishStep_tickDraws : (s.finishStep).tickDraws = s.tickDraws + 1 := rfl
@[simp] theorem State.finishStep_reg (q : Reg) : (s.finishStep).reg q = s.reg q := rfl
@[simp] theorem State.finishStep_key (k : Key) : (s.finishStep).key k = s.key k := rfl
@[simp] theorem State.finishStep_cell (idx : Nat) : (s.finishStep).cell idx = s.cell idx := rfl
@[simp] theorem State.finishStep_peek (c : Nat) : (s.finishStep).peek c = s.peek c := rfl
@[simp] theorem State.finishStep_ea (c : Nat) : (s.finishStep).ea c = s.ea c := rfl
@[simp] theorem State.finishStep_sp : (s.finishStep).sp = s.sp := rfl

/-! ### skipIf -/

@[simp] theorem State.skipIf_v (d : Bool) : (s.skipIf d).v = s.v := rfl
@[simp] theorem State.skipIf_i (d : Bool) : (s.skipIf d).i = s.i := rfl
@[simp] theorem State.skipIf_pc (d : Bool) : (s.skipIf d).pc = if d then s.pc + 2 else s.pc := rfl
@[simp] theorem State.skipIf_stack (d : Bool) : (s.skipIf d).stack = s.stack := rfl
@[simp] theorem State.skipIf_dt (d : Bool) : (s.skipIf d).dt = s.dt := rfl
@[simp] theorem State.skipIf_st (d : Bool) : (s.skipIf d).st = s.st := rfl
@[simp] theorem State.skipIf_wait (d : Bool) : (s.skipIf d).wait = s.wait := rfl
@[simp] theorem State.skipIf_keys (d : Bool) : (s.skipIf d).keys = s.keys := rfl
@[simp] theorem State.skipIf_fb (d : Bool) : (s.skipIf d).fb = s.fb := rfl
@[simp] theorem State.skipIf_mem (d : Bool) : (s.skipIf d).mem = s.mem := rfl
@[simp] theorem State.skipIf_out (d : Bool) : (s.skipIf d).out = s.out := rfl
@[simp] theorem State.skipIf_inputs (d : Bool) : (s.skipIf d).inputs = s.inputs := rfl
@[simp] theorem State.skipIf_rndDraws (d : Bool) : (s.skipIf d).rndDraws = s.rndDraws := rfl
@[simp] theorem State.skipIf_tickDraws (d : Bool) : (s.skipIf d).tickDraws = s.tickDraws := rfl
@[simp] theorem State.skipIf_reg (d : Bool) (q : Reg) : (s.skipIf d).reg q = s.reg q := rfl
@[simp] theorem State.skipIf_key (d : Bool) (k : Key) : (s.skipIf d).key k = s.key k := rfl
@[simp] theorem State.skipIf_cell (d : Bool) (idx : Nat) : (s.skipIf d).cell idx = s.cell idx := rfl
@[simp] theorem State.skipIf_peek (d : Bool) (c : Nat) : (s.skipIf d).peek c = s.peek c := rfl
@[simp] theorem State.skipIf_ea (d : Bool) (c : Nat) : (s.skipIf d).ea c = s.ea c := rfl
@[simp] theorem State.skipIf_sp (d : Bool) : (s.skipIf d).sp = s.sp := rfl

/-! ### loadOffset -/

@[simp] theorem loadOffset_some (a : Nat) : loadOffset (some a) = a := rfl
@[simp] theorem loadOffset_none : loadOffset none = Config.progBase := rfl

/-! ### supply -/

@[simp] theorem State.supply_tickValue (d : Bool) (b : Byte) : (s.supply d b).tickValue = d := rfl
@[simp] theorem State.supply_rndValue (d : Bool) (b : Byte) : (s.supply d b).rndValue = b := rfl

@[simp] theorem State.supply_v (d : Bool) (b : Byte) : (s.supply d b).v = s.v := rfl
@[simp] theorem State.supply_i (d : Bool) (b : Byte) : (s.supply d b).i = s.i := rfl
@[simp] theorem State.supply_pc (d : Bool) (b : Byte) : (s.supply d b).pc = s.pc := rfl
@[simp] theorem State.supply_stack (d : Bool) (b : Byte) : (s.supply d b).stack = s.stack := rfl
@[simp] theorem State.supply_dt (d : Bool) (b : Byte) : (s.supply d b).dt = s.dt := rfl
@[simp] theorem State.supply_st (d : Bool) (b : Byte) : (s.supply d b).st = s.st := rfl
@[simp] theorem State.supply_wait (d : Bool) (b : Byte) : (s.supply d b).wait = s.wait := rfl
@[simp] theorem State.supply_keys (d : Bool) (b : Byte) : (s.supply d b).keys = s.keys := rfl
@[simp] theorem State.supply_fb (d : Bool) (b : Byte) : (s.supply d b).fb = s.fb := rfl
@[simp] theorem State.supply_mem (d : Bool) (b : Byte) : (s.supply d b).mem = s.mem := rfl
@[simp] theorem State.supply_out (d : Bool) (b : Byte) : (s.supply d b).out = s.out := rfl
@[simp] theorem State.supply_inputs (d : Bool) (b : Byte) : (s.supply d b).inputs = ⟨some d, some b⟩ := rfl
@[simp] theorem State.supply_rndDraws (d : Bool) (b : Byte) : (s.supply d b).rndDraws = s.rndDraws := rfl
@[simp] theorem State.supply_tickDraws (d : Bool) (b : Byte) : (s.supply d b).tickDraws = s.tickDraws := rfl
@[simp] theorem State.supply_reg (d : Bool) (b : Byte) (q : Reg) : (s.supply d b).reg q = s.reg q := rfl
@[simp] theorem State.supply_key (d : Bool) (b : Byte) (k : Key) : (s.supply d b).key k = s.key k := rfl
@[simp] theorem State.supply_cell (d : Bool) (b : Byte) (idx : Nat) : (s.supply d b).cell idx = s.cell idx := rfl
@[simp] theorem State.supply_peek (d : Bool) (b : Byte) (c : Nat) : (s.supply d b).peek c = s.peek c := rfl
@[simp] theorem State.supply_ea (d : Bool) (b : Byte) (c : Nat) : (s.supply d b).ea c = s.ea c := rfl
@[simp] theorem State.supply_sp (d : Bool) (b : Byte) : (s.supply d b).sp = s.sp := rfl

/-! ### dispatched -/

@[simp] theorem State.dispatched_v : (s.dispatched).v = s.v := rfl
@[simp] theorem State.dispatched_i : (s.dispatched).i = s.i := rfl
@[simp] theorem State.dispatched_pc : (s.dispatched).pc = s.pc + 2 := rfl
@[simp] theorem State.dispatched_stack : (s.dispatched).stack = s.stack := rfl
@[simp] theorem State.dispatched_dt : (s.dispatched).dt = s.dt := rfl
@[simp] theorem State.dispatched_st : (s.dispatched).st = s.st := rfl
@[simp] theorem State.dispatched_wait : (s.dispatched).wait = s.wait := rfl
@[simp] theorem State.dispatched_keys : (s.dispatched).keys = s.keys := rfl
@[simp] theorem State.dispatched_fb : (s.dispatched).fb = s.fb := rfl
@[simp] theorem State.dispatched_mem : (s.dispatched).mem = s.mem := rfl
@[simp] theorem State.dispatched_out : (s.dispatched).out = { StepRecord.clear with memOob := oobIn s.pc.toNat 2 } := rfl
@[simp] theorem State.dispatched_inputs : (s.dispatched).inputs = s.inputs := rfl
@[simp] theorem State.dispatched_rndDraws : (s.dispatched).rndDraws = s.rndDraws := rfl
@[simp] theorem State.dispatched_tickDraws : (s.dispatched).tickDraws = s.tickDraws := rfl
@[simp] theorem State.dispatched_reg (q : Reg) : (s.dispatched).reg q = s.reg q := rfl
@[simp] theorem State.dispatched_key (k : Key) : (s.dispatched).key k = s.key k := rfl
@[simp] theorem State.dispatched_cell (idx : Nat) : (s.dispatched).cell idx = s.cell idx := rfl
@[simp] theorem State.dispatched_peek (c : Nat) : (s.dispatched).peek c = s.peek c := rfl
@[simp] theorem State.dispatched_ea (c : Nat) : (s.dispatched).ea c = s.ea c := rfl
@[simp] theorem State.dispatched_sp : (s.dispatched).sp = s.sp := rfl

end Sys2Proof.Machine
end

