-- ==== Sys2Proof/Laws/Display.lean ====
section
/-! SUPPORT. The framebuffer by cells: what a flip, a clear and the drawing of a pixel, a row and a sprite do. -/

namespace Sys2Proof.Machine

/-- There is no cell above index 2047. -/
theorem fbCell_above (fb : Framebuffer) {idx : Nat} (h : Config.fbTop < idx) : fbCell fb idx = false := by
  simp [fbCell, Nat.not_le.mpr h]

@[simp] theorem fbCell_fbClear (idx : Nat) : fbCell fbClear idx = false := by
  unfold fbCell fbClear
  split <;> simp

/-- A flip inverts its own cell and no other. -/
theorem fbCell_fbFlip (fb : Framebuffer) (i j : Nat) :
    fbCell (fbFlip fb i) j = if j = i ∧ i ≤ Config.fbTop then !fbCell fb j else fbCell fb j := by
  unfold fbFlip
  split
  case isFalse h => simp [h]
  case isTrue h =>
    unfold fbCell
    split
    case isFalse hj =>
      have : ¬ (j = i ∧ i ≤ Config.fbTop) := by rintro ⟨rfl, h'⟩; exact hj h'
      simp [this]
    case isTrue hj =>
      rw [Vector.getElem_set]
      by_cases e : i / 64 = j / 64
      · simp only [e, if_true, BitVec.getLsbD_xor, BitVec.getLsbD_twoPow]
        by_cases e2 : i % 64 = j % 64
        · have : j = i := by omega
          subst this
          have hlt : j % 64 < 64 := Nat.mod_lt _ (by decide)
          simp [hlt, h]
        · have : j ≠ i := by rintro rfl; exact e2 rfl
          simp [this, e2]
      · have : j ≠ i := by rintro rfl; exact e rfl
        simp [e, this]

/-- Two framebuffers with the same cells are the same. -/
theorem fb_ext {a b : Framebuffer} (h : ∀ idx ≤ Config.fbTop, fbCell a idx = fbCell b idx) : a = b := by
  apply Vector.ext
  intro y hy
  apply BitVec.eq_of_getLsbD_eq
  intro x hx
  have hi : y * 64 + x ≤ Config.fbTop := by unfold Config.fbTop; omega
  have := h (y * 64 + x) hi
  have e1 : (y * 64 + x) / 64 = y := by omega
  have e2 : (y * 64 + x) % 64 = x := by omega
  simpa [fbCell, hi, e1, e2] using this

/-- The cell test of a drawing of one pixel. -/
theorem drawPixel_cell (idx j : Nat) (bit : Bool) (d : Drawing) :
    fbCell (drawPixel idx bit d).fb j = (fbCell d.fb j ^^ (bit && decide (j = idx ∧ idx ≤ Config.fbTop))) := by
  unfold drawPixel
  split
  case isTrue h => simp [Nat.not_le.mpr h]
  case isFalse h =>
    cases bit
    · simp
    · simp only [if_true, fbCell_fbFlip, Bool.true_and]
      by_cases e : j = idx ∧ idx ≤ Config.fbTop <;> simp [e]

/-- The collision of a drawing of one pixel: a 1 that meets a 1 (R153). -/
theorem drawPixel_collision (idx : Nat) (bit : Bool) (d : Drawing) :
    (drawPixel idx bit d).collision = (d.collision || (bit && fbCell d.fb idx)) := by
  unfold drawPixel
  split
  case isTrue h => simp [fbCell_above _ h]
  case isFalse h => rfl

/-- A sprite bit of a row: bit `7 - col` of `b` is 1 and column `col` falls on cell `j`. -/
def rowHits (x y : Nat) (b : Byte) (n j : Nat) : Prop :=
  j ≤ Config.fbTop ∧ ∃ col < n, j = pixelIndex (x + col) y ∧ b.getLsbD (7 - col) = true

/-- A sprite bit of the first `n` rows falls on cell `j`. -/
def rowsHit (s : State) (x y n j : Nat) : Prop := ∃ row < n, rowHits x (y + row) (s.peek (s.ea row)) 8 j

open Classical in
/-- The first `n ≤ 8` columns of a row invert exactly the cells its 1 bits fall on. -/
theorem drawColumns_cell (x y : Nat) (b : Byte) (n j : Nat) (d : Drawing) :
    fbCell (drawColumns x y b n d).fb j = (fbCell d.fb j ^^ decide (rowHits x y b n j)) := by
  induction n with
  | zero => simp [drawColumns, rowHits]
  | succ n ih =>
    rw [drawColumns, drawPixel_cell, ih, Bool.xor_assoc]
    congr 1
    have key : rowHits x y b (n + 1) j ↔
        (rowHits x y b n j ∨ (b.getLsbD (7 - n) = true ∧ j = pixelIndex (x + n) y ∧ j ≤ Config.fbTop)) := by
      constructor
      · rintro ⟨hj, col, hc, h⟩
        rcases Nat.lt_succ_iff_lt_or_eq.mp hc with hc | rfl
        · exact .inl ⟨hj, col, hc, h⟩
        · exact .inr ⟨h.2, h.1, hj⟩
      · rintro (⟨hj, col, hc, h⟩ | ⟨h1, h2, hj⟩)
        · exact ⟨hj, col, by omega, h⟩
        · exact ⟨hj, n, by omega, h2, h1⟩
    have excl : rowHits x y b n j → ¬ (j = pixelIndex (x + n) y) := by
      rintro ⟨_, col, hc, h, _⟩ h'
      unfold pixelIndex at h h'
      omega
    by_cases h1 : rowHits x y b n j
    · simp [key, h1, excl h1]
    · by_cases h2 : j = pixelIndex (x + n) y
      · subst h2
        cases hb : b.getLsbD (7 - n) <;> simp [key, h1, hb]
      · simp [key, h1, h2]

open Classical in
/-- A row collides exactly when one of its 1 bits falls on a cell that was 1 before the row (R153). -/
theorem drawColumns_collision (x y : Nat) (b : Byte) (n : Nat) (d : Drawing) :
    (drawColumns x y b n d).collision =
      (d.collision || decide (∃ j, rowHits x y b n j ∧ fbCell d.fb j = true)) := by
  induction n with
  | zero => simp [drawColumns, rowHits]
  | succ n ih =>
    rw [drawColumns, drawPixel_collision, ih, Bool.or_assoc]
    congr 1
    rw [drawColumns_cell]
    have hn : ¬ rowHits x y b n (pixelIndex (x + n) y) := by
      rintro ⟨_, col, hc, h, _⟩
      unfold pixelIndex at h
      omega
    rw [decide_eq_false hn, Bool.xor_false, Bool.eq_iff_iff]
    simp only [Bool.or_eq_true, decide_eq_true_eq, Bool.and_eq_true]
    constructor
    · rintro (⟨j, ⟨hj, col, hc, h⟩, hf⟩ | ⟨hb, hf⟩)
      · exact ⟨j, ⟨hj, col, by omega, h⟩, hf⟩
      · have : pixelIndex (x + n) y ≤ Config.fbTop := by
          by_contra h
          rw [fbCell_above _ (by omega)] at hf
          cases hf
        exact ⟨_, ⟨this, n, by omega, rfl, hb⟩, hf⟩
    · rintro ⟨j, ⟨hj, col, hc, h, hb⟩, hf⟩
      rcases Nat.lt_succ_iff_lt_or_eq.mp hc with hc | rfl
      · exact .inl ⟨j, ⟨hj, col, hc, h, hb⟩, hf⟩
      · subst h; exact .inr ⟨hb, hf⟩

/-- No two bits of one sprite address the same cell (R153). -/
theorem rowHits_unique {x y row row' : Nat} {b b' : Byte} {j : Nat} (h : rowHits x (y + row) b 8 j)
    (h' : rowHits x (y + row') b' 8 j) : row = row' := by
  obtain ⟨_, c, hc, e, _⟩ := h
  obtain ⟨_, c', hc', e', _⟩ := h'
  unfold pixelIndex at e e'
  omega

open Classical in
/-- The first `n` rows of a sprite invert exactly the cells its 1 bits fall on. -/
theorem drawRows_cell (s : State) (x y n j : Nat) (d : Drawing) :
    fbCell (s.drawRows x y n d).fb j = (fbCell d.fb j ^^ decide (rowsHit s x y n j)) := by
  induction n with
  | zero => simp [State.drawRows, rowsHit]
  | succ n ih =>
    rw [State.drawRows, drawColumns_cell, ih, Bool.xor_assoc]
    congr 1
    have key : rowsHit s x y (n + 1) j ↔ (rowsHit s x y n j ∨ rowHits x (y + n) (s.peek (s.ea n)) 8 j) := by
      constructor
      · rintro ⟨row, hr, h⟩
        rcases Nat.lt_succ_iff_lt_or_eq.mp hr with hr | rfl
        · exact .inl ⟨row, hr, h⟩
        · exact .inr h
      · rintro (⟨row, hr, h⟩ | h)
        · exact ⟨row, by omega, h⟩
        · exact ⟨n, by omega, h⟩
    by_cases h1 : rowsHit s x y n j
    · have : ¬ rowHits x (y + n) (s.peek (s.ea n)) 8 j := by
        obtain ⟨row, hr, h⟩ := h1
        exact fun h' => absurd (rowHits_unique h h') (by omega)
      simp [key, h1, this]
    · by_cases h2 : rowHits x (y + n) (s.peek (s.ea n)) 8 j <;> simp [key, h1, h2]

open Classical in
/-- A sprite collides exactly when one of its 1 bits falls on a cell that was 1 before the instruction (R153). -/
theorem drawRows_collision (s : State) (x y n : Nat) (d : Drawing) :
    (s.drawRows x y n d).collision =
      (d.collision || decide (∃ j, rowsHit s x y n j ∧ fbCell d.fb j = true)) := by
  induction n with
  | zero => simp [State.drawRows, rowsHit]
  | succ n ih =>
    rw [State.drawRows, drawColumns_collision, ih, Bool.or_assoc]
    congr 1
    rw [Bool.eq_iff_iff]
    simp only [Bool.or_eq_true, decide_eq_true_eq]
    constructor
    · rintro (⟨j, ⟨row, hr, h⟩, hf⟩ | ⟨j, h, hf⟩)
      · exact ⟨j, ⟨row, by omega, h⟩, hf⟩
      · have hno : ¬ rowsHit s x y n j := by
          rintro ⟨row, hr, h'⟩
          exact absurd (rowHits_unique h' h) (by omega)
        rw [drawRows_cell, decide_eq_false hno, Bool.xor_false] at hf
        exact ⟨j, ⟨n, by omega, h⟩, hf⟩
    · rintro ⟨j, ⟨row, hr, h⟩, hf⟩
      rcases Nat.lt_succ_iff_lt_or_eq.mp hr with hr | rfl
      · exact .inl ⟨j, ⟨row, hr, h⟩, hf⟩
      · refine .inr ⟨j, h, ?_⟩
        have hno : ¬ rowsHit s x y row j := by
          rintro ⟨row', hr', h'⟩
          exact absurd (rowHits_unique h' h) (by omega)
        rw [drawRows_cell, decide_eq_false hno, Bool.xor_false]
        exact hf

end Sys2Proof.Machine
end

