-- ==== Sys2Proof/Laws/Encoding.lean ====
section
/-! SUPPORT. The fields of a packed word, and a word from its fields. -/

namespace Sys2Proof

@[simp] theorem highByte_wordOfBytes (hi lo : Byte) : highByte (wordOfBytes hi lo) = hi := by
  unfold highByte wordOfBytes
  ext i h
  interval_cases i <;> simp

@[simp] theorem lowByte_wordOfBytes (hi lo : Byte) : lowByte (wordOfBytes hi lo) = lo := by
  unfold lowByte wordOfBytes
  ext i h
  interval_cases i <;> simp

/-- A word is its two bytes, the high one first (R57). -/
@[simp] theorem wordOfBytes_bytes (w : Word) : wordOfBytes (highByte w) (lowByte w) = w := by
  unfold highByte lowByte wordOfBytes
  ext i h
  interval_cases i <;> simp

@[simp] theorem fieldG_wordNNN (g : Nibble) (nnn : Addr) : fieldG (wordNNN g nnn) = g := by
  unfold fieldG wordNNN
  ext i h
  interval_cases i <;> simp

@[simp] theorem fieldNNN_wordNNN (g : Nibble) (nnn : Addr) : fieldNNN (wordNNN g nnn) = nnn := by
  unfold fieldNNN wordNNN
  ext i h
  interval_cases i <;> simp

@[simp] theorem fieldG_wordXNN (g : Nibble) (x : Reg) (nn : Byte) : fieldG (wordXNN g x nn) = g := by
  unfold fieldG wordXNN
  ext i h
  interval_cases i <;> simp

@[simp] theorem fieldX_wordXNN (g : Nibble) (x : Reg) (nn : Byte) : fieldX (wordXNN g x nn) = x := by
  unfold fieldX wordXNN
  ext i h
  interval_cases i <;> simp

@[simp] theorem fieldNN_wordXNN (g : Nibble) (x : Reg) (nn : Byte) : fieldNN (wordXNN g x nn) = nn := by
  unfold fieldNN wordXNN
  ext i h
  interval_cases i <;> simp

@[simp] theorem fieldG_wordXYN (g : Nibble) (x y : Reg) (n : Nibble) : fieldG (wordXYN g x y n) = g := by
  unfold fieldG wordXYN
  ext i h
  interval_cases i <;> simp

@[simp] theorem fieldX_wordXYN (g : Nibble) (x y : Reg) (n : Nibble) : fieldX (wordXYN g x y n) = x := by
  unfold fieldX wordXYN
  ext i h
  interval_cases i <;> simp

@[simp] theorem fieldY_wordXYN (g : Nibble) (x y : Reg) (n : Nibble) : fieldY (wordXYN g x y n) = y := by
  unfold fieldY wordXYN
  ext i h
  interval_cases i <;> simp

@[simp] theorem fieldN_wordXYN (g : Nibble) (x y : Reg) (n : Nibble) : fieldN (wordXYN g x y n) = n := by
  unfold fieldN wordXYN
  ext i h
  interval_cases i <;> simp

/-- The group of a word is seen through the mask of a row without secondary decode (R75, R76). -/
theorem fieldG_and_F000 (op : Word) : fieldG (op &&& 0xF000) = fieldG op := by
  unfold fieldG
  ext i h
  interval_cases i <;> simp

/-- The group of a word is seen through the mask of a group-8 row. -/
theorem fieldG_and_F00F (op : Word) : fieldG (op &&& 0xF00F) = fieldG op := by
  unfold fieldG
  ext i h
  interval_cases i <;> simp

/-- The low nibble of a word is seen through the mask of a group-8 row. -/
theorem fieldN_and_F00F (op : Word) : fieldN (op &&& 0xF00F) = fieldN op := by
  unfold fieldN
  ext i h
  interval_cases i <;> simp

/-- The group of a word is seen through the mask of a group-E or group-F row. -/
theorem fieldG_and_F0FF (op : Word) : fieldG (op &&& 0xF0FF) = fieldG op := by
  unfold fieldG
  ext i h
  interval_cases i <;> simp

/-- The low byte of a word is seen through the mask of a group-E or group-F row. -/
theorem fieldNN_and_F0FF (op : Word) : fieldNN (op &&& 0xF0FF) = fieldNN op := by
  unfold fieldNN
  ext i h
  interval_cases i <;> simp

/-- A word from its group and its low 12 bits. -/
@[simp] theorem wordNNN_fields (op : Word) : wordNNN (fieldG op) (fieldNNN op) = op := by
  unfold wordNNN fieldG fieldNNN
  ext i h
  interval_cases i <;> simp

/-- A word from its group, `X` and `NN`. -/
@[simp] theorem wordXNN_fields (op : Word) : wordXNN (fieldG op) (fieldX op) (fieldNN op) = op := by
  unfold wordXNN fieldG fieldX fieldNN
  ext i h
  interval_cases i <;> simp

/-- A word from its four nibbles. -/
@[simp] theorem wordXYN_fields (op : Word) : wordXYN (fieldG op) (fieldX op) (fieldY op) (fieldN op) = op := by
  unfold wordXYN fieldG fieldX fieldY fieldN
  ext i h
  interval_cases i <;> simp

end Sys2Proof
end

