-- ==== Sys2Proof/Laws/Memory.lean ====
section
/-! SUPPORT. Memory: a read after a write, in every memory for another address and in a canonical memory for the
same one; and every memory operation keeps the canonical form. -/

namespace Sys2Proof.Machine

/-- A canonical memory above `lo` is canonical above every lower bound. -/
theorem memWfFrom_mono {lo lo' : Nat} (h : lo' ≤ lo) {m : Memory} (w : memWfFrom lo m = true) :
    memWfFrom lo' m = true := by
  cases m with
  | nil => rfl
  | cons c m =>
    simp only [memWfFrom, Bool.and_eq_true, decide_eq_true_eq] at w ⊢
    exact ⟨⟨⟨h.trans w.1.1.1, w.1.1.2⟩, w.1.2⟩, w.2⟩

/-- Below every listed address a canonical memory reads its reset contents. -/
theorem memGet_below {lo a : Nat} (h : a < lo) {m : Memory} (w : memWfFrom lo m = true) :
    memGet m a = unlistedByte a := by
  induction m generalizing lo with
  | nil => rfl
  | cons c m ih =>
    obtain ⟨b, v⟩ := c
    simp only [memWfFrom, Bool.and_eq_true, decide_eq_true_eq] at w
    have hb : b ≠ a := by omega
    simp only [memGet, hb, if_false]
    exact ih (lo := b + 1) (by omega) w.2

/-- A write leaves every other address alone, whatever the memory. -/
theorem memGet_memSet_ne (m : Memory) {a c : Nat} (v : Byte) (h : c ≠ a) : memGet (memSet m a v) c = memGet m c := by
  induction m with
  | nil =>
    by_cases e : v = unlistedByte a
    · simp [memSet, e]
    · simp [memSet, e, memGet, Ne.symm h]
  | cons p m ih =>
    obtain ⟨b, w⟩ := p
    by_cases h1 : a < b
    · by_cases e : v = unlistedByte a <;> simp [memSet, h1, e, memGet, Ne.symm h]
    · by_cases h2 : a = b
      · subst h2
        by_cases e : v = unlistedByte a <;> simp [memSet, e, memGet, Ne.symm h]
      · simp [memSet, h1, h2, memGet, ih]

/-- A write to a canonical memory is read back. -/
theorem memGet_memSet_self {lo : Nat} {m : Memory} (w : memWfFrom lo m = true) (a : Nat) (v : Byte) :
    memGet (memSet m a v) a = v := by
  induction m generalizing lo with
  | nil =>
    by_cases e : v = unlistedByte a <;> simp [memSet, e, memGet]
  | cons p m ih =>
    obtain ⟨b, u⟩ := p
    have w' := w
    simp only [memWfFrom, Bool.and_eq_true, decide_eq_true_eq] at w
    by_cases h1 : a < b
    · by_cases e : v = unlistedByte a
      · simp only [memSet, h1, e, if_true]
        exact memGet_below (lo := b) h1 (by simp only [memWfFrom, Bool.and_eq_true, decide_eq_true_eq]; simp [w])
      · simp [memSet, h1, e, memGet]
    · by_cases h2 : a = b
      · subst h2
        by_cases e : v = unlistedByte a
        · simp only [memSet, e, if_true, lt_irrefl, if_false]
          exact memGet_below (lo := a + 1) (by omega) w.2
        · simp [memSet, e, memGet]
      · simp only [memSet, h1, h2, if_false, memGet, Ne.symm h2]
        exact ih w.2

/-- A write inside memory keeps the canonical form. -/
theorem memSet_wfFrom {lo a : Nat} (hlo : lo ≤ a) (ha : a ≤ Config.memTop) (v : Byte) {m : Memory}
    (w : memWfFrom lo m = true) : memWfFrom lo (memSet m a v) = true := by
  induction m generalizing lo with
  | nil =>
    by_cases e : v = unlistedByte a <;> simp [memSet, e, memWfFrom, hlo, ha]
  | cons p m ih =>
    obtain ⟨b, u⟩ := p
    have w' := w
    simp only [memWfFrom, Bool.and_eq_true, decide_eq_true_eq] at w
    obtain ⟨⟨⟨hb, hb'⟩, hu⟩, hm⟩ := w
    by_cases h1 : a < b
    · by_cases e : v = unlistedByte a
      · simpa [memSet, h1, e] using w'
      · simp [memSet, h1, e, memWfFrom, hlo, ha, hu, hb', hm, Nat.succ_le_of_lt h1]
    · by_cases h2 : a = b
      · subst h2
        by_cases e : v = unlistedByte a
        · simpa [memSet, e] using memWfFrom_mono (show lo ≤ a + 1 by omega) hm
        · simp [memSet, e, memWfFrom, hlo, ha, hm]
      · simp only [memSet, h1, h2, if_false, memWfFrom, Bool.and_eq_true, decide_eq_true_eq]
        exact ⟨⟨⟨hb, hb'⟩, hu⟩, ih (by omega) hm⟩

/-- `MemWrite` keeps the canonical form (R54). -/
theorem memWrite_wf {m : Memory} (w : Memory.wf m = true) (a : Nat) (v : Byte) : Memory.wf (memWrite m a v) = true := by
  unfold memWrite
  split
  · exact memSet_wfFrom (Nat.zero_le _) ‹_› v w
  · exact w

/-- Block writes keep the canonical form. -/
theorem memWriteAll_wf {m : Memory} (w : Memory.wf m = true) (a : Nat) (bs : List Byte) :
    Memory.wf (memWriteAll m a bs) = true := by
  induction bs generalizing m a with
  | nil => exact w
  | cons b bs ih => exact ih (memWrite_wf w a b) (a + 1)

/-- A read of another address does not see a write. -/
theorem memRead_memWrite_ne (m : Memory) {a c : Nat} (v : Byte) (h : c ≠ a) :
    memRead (memWrite m a v) c = memRead m c := by
  unfold memRead memWrite
  by_cases ha : a ≤ Config.memTop <;> simp [ha, memGet_memSet_ne _ _ h]

/-- A write inside a canonical memory is read back; a write outside reads 0 (R53, R54). -/
theorem memRead_memWrite_self {m : Memory} (w : Memory.wf m = true) (a : Nat) (v : Byte) :
    memRead (memWrite m a v) a = if a ≤ Config.memTop then v else 0 := by
  unfold memRead memWrite
  split <;> simp_all [memGet_memSet_self (lo := 0) (by simpa [Memory.wf] using w)]

/-- Outside the block, a block write leaves every byte alone, whatever the memory. -/
theorem memRead_memWriteAll_outside (m : Memory) (a : Nat) (bs : List Byte) {c : Nat} (h : c < a ∨ a + bs.length ≤ c) :
    memRead (memWriteAll m a bs) c = memRead m c := by
  induction bs generalizing m a with
  | nil => rfl
  | cons b bs ih =>
    simp only [List.length_cons] at h
    rw [memWriteAll, ih _ _ (by omega), memRead_memWrite_ne _ _ (by omega)]

/-- Inside the block and inside memory, a block write to a canonical memory is read back. -/
theorem memRead_memWriteAll_inside {m : Memory} (w : Memory.wf m = true) (a : Nat) (bs : List Byte) (k : Nat)
    (hk : k < bs.length) (ht : a + k ≤ Config.memTop) : memRead (memWriteAll m a bs) (a + k) = bs[k] := by
  induction bs generalizing m a k with
  | nil => simp at hk
  | cons b bs ih =>
    cases k with
    | zero =>
      rw [memWriteAll, memRead_memWriteAll_outside _ _ _ (by omega)]
      simpa [show a ≤ Config.memTop by omega] using memRead_memWrite_self w a b
    | succ k =>
      have := ih (memWrite_wf w a b) (a + 1) k (by simpa using hk) (by omega)
      rw [show a + (k + 1) = a + 1 + k by omega]
      simpa [memWriteAll] using this

/-- Above memory every byte reads 0 (R53). -/
theorem memRead_above (m : Memory) {a : Nat} (h : Config.memTop < a) : memRead m a = 0 := by
  simp [memRead, Nat.not_le.mpr h]

/-- The diagnostic of an access of at least one byte depends on its last address only (R55). -/
theorem oobIn_iff (a n : Nat) : oobIn a n = true ↔ 0 < n ∧ Config.memTop < a + n - 1 := by
  unfold oobIn
  simp only [List.any_eq_true, List.mem_range, decide_eq_true_eq]
  constructor
  · rintro ⟨k, hk, h⟩; omega
  · rintro ⟨h0, h⟩; exact ⟨n - 1, by omega, by omega⟩

/-- A word stored inside a canonical memory, high byte first, is read back whole (R56, R57). -/
theorem peekWord_memWriteAll {s t : State} (w : Memory.wf s.mem = true) {a : Nat} (ha : a + 1 ≤ Config.memTop)
    {hi lo : Byte} (e : t.mem = memWriteAll s.mem a [hi, lo]) : t.peekWord a = wordOfBytes hi lo := by
  have h0 := memRead_memWriteAll_inside w a [hi, lo] 0 (by simp) (by omega)
  have h1 := memRead_memWriteAll_inside w a [hi, lo] 1 (by simp) ha
  simp only [Nat.add_zero, List.getElem_cons_zero, List.getElem_cons_succ] at h0 h1
  simp [State.peekWord, State.peek, e, h0, h1]

/-- A placed word is what the next step fetches, wherever `PC` stood, and no wait is in its way. -/
theorem placeWord_fetched {s : State} (w : Memory.wf s.mem = true) (op : Word) :
    (s.placeWord op).fetchWord = op ∧ (s.placeWord op).wait = false := by
  refine ⟨?_, rfl⟩
  unfold State.placeWord State.fetchWord
  rw [State.setWait_pc, State.setPc_pc, BitVec.toNat_ofNat]
  split
  · rw [Nat.mod_eq_of_lt (by omega), peekWord_memWriteAll w ‹_› rfl, wordOfBytes_bytes]
  · rw [peekWord_memWriteAll w (by decide) rfl, wordOfBytes_bytes]

end Sys2Proof.Machine
end

