-- ==== Sys2Proof/Laws/PerInstr.lean ====
section
/-! SUPPORT. One lemma per instruction: the word of an instruction selects the instruction's own row of the opcode
map (spec 30_encoding.md R76), so that its fixed bits are the table's. -/

namespace Sys2Proof.Laws.SelectsRow

/-- The word of the instruction selects its row: `encode i AND mask = match`. -/
def Statement (i : Instr) : Prop := i.row.selects (encode i) = true

/-- The fixed bits of a word of format `NNN`. -/
theorem and_wordNNN (g : Nibble) (nnn : Addr) : wordNNN g nnn &&& 0xF000 = wordNNN g 0 := by
  unfold wordNNN
  ext i h
  interval_cases i <;> simp

/-- The group of a word of format `XNN`. -/
theorem and_group_wordXNN (g : Nibble) (x : Reg) (nn : Byte) : wordXNN g x nn &&& 0xF000 = wordXNN g 0 0 := by
  unfold wordXNN
  ext i h
  interval_cases i <;> simp

/-- The fixed bits of a word of format `X`. -/
theorem and_wordX (g : Nibble) (x : Reg) (nn : Byte) : wordXNN g x nn &&& 0xF0FF = wordXNN g 0 nn := by
  unfold wordXNN
  ext i h
  interval_cases i <;> simp

/-- The group of a word of formats `XY` and `XYN`. -/
theorem and_group_wordXYN (g : Nibble) (x y : Reg) (n : Nibble) : wordXYN g x y n &&& 0xF000 = wordXYN g 0 0 0 := by
  unfold wordXYN
  ext i h
  interval_cases i <;> simp

/-- The fixed bits of a word of format `XY` in group 8. -/
theorem and_wordXY (g : Nibble) (x y : Reg) (n : Nibble) : wordXYN g x y n &&& 0xF00F = wordXYN g 0 0 n := by
  unfold wordXYN
  ext i h
  interval_cases i <;> simp

/-- A word selects a row when its bits under the mask are the row's. -/
theorem of_and {r : OpcodeRow} {op w : Word} (h : op &&& r.mask = w) (e : w = r.value) : r.selects op = true := by
  simp [OpcodeRow.selects, h, e]

theorem cls : Statement .cls := rfl
theorem ret : Statement .ret := rfl
theorem jp (nnn : Addr) : Statement (.jp nnn) := of_and (and_wordNNN _ nnn) rfl
theorem call (nnn : Addr) : Statement (.call nnn) := of_and (and_wordNNN _ nnn) rfl
theorem seImm (x : Reg) (nn : Byte) : Statement (.seImm x nn) := of_and (and_group_wordXNN _ x nn) rfl
theorem sneImm (x : Reg) (nn : Byte) : Statement (.sneImm x nn) := of_and (and_group_wordXNN _ x nn) rfl
theorem seReg (x y : Reg) (n : Nibble) : Statement (.seReg x y n) := of_and (and_group_wordXYN _ x y n) rfl
theorem ldImm (x : Reg) (nn : Byte) : Statement (.ldImm x nn) := of_and (and_group_wordXNN _ x nn) rfl
theorem addImm (x : Reg) (nn : Byte) : Statement (.addImm x nn) := of_and (and_group_wordXNN _ x nn) rfl
theorem ldReg (x y : Reg) : Statement (.ldReg x y) := of_and (and_wordXY _ x y _) rfl
theorem orReg (x y : Reg) : Statement (.orReg x y) := of_and (and_wordXY _ x y _) rfl
theorem andReg (x y : Reg) : Statement (.andReg x y) := of_and (and_wordXY _ x y _) rfl
theorem xorReg (x y : Reg) : Statement (.xorReg x y) := of_and (and_wordXY _ x y _) rfl
theorem addReg (x y : Reg) : Statement (.addReg x y) := of_and (and_wordXY _ x y _) rfl
theorem subReg (x y : Reg) : Statement (.subReg x y) := of_and (and_wordXY _ x y _) rfl
theorem shr (x y : Reg) : Statement (.shr x y) := of_and (and_wordXY _ x y _) rfl
theorem subnReg (x y : Reg) : Statement (.subnReg x y) := of_and (and_wordXY _ x y _) rfl
theorem shl (x y : Reg) : Statement (.shl x y) := of_and (and_wordXY _ x y _) rfl
theorem sneReg (x y : Reg) (n : Nibble) : Statement (.sneReg x y n) := of_and (and_group_wordXYN _ x y n) rfl
theorem ldI (nnn : Addr) : Statement (.ldI nnn) := of_and (and_wordNNN _ nnn) rfl
theorem jpV0 (nnn : Addr) : Statement (.jpV0 nnn) := of_and (and_wordNNN _ nnn) rfl
theorem rnd (x : Reg) (nn : Byte) : Statement (.rnd x nn) := of_and (and_group_wordXNN _ x nn) rfl
theorem drw (x y : Reg) (n : Nibble) : Statement (.drw x y n) := of_and (and_group_wordXYN _ x y n) rfl
theorem skp (x : Reg) : Statement (.skp x) := of_and (and_wordX _ x _) rfl
theorem sknp (x : Reg) : Statement (.sknp x) := of_and (and_wordX _ x _) rfl
theorem ldFromDt (x : Reg) : Statement (.ldFromDt x) := of_and (and_wordX _ x _) rfl
theorem ldKey (x : Reg) : Statement (.ldKey x) := of_and (and_wordX _ x _) rfl
theorem ldDt (x : Reg) : Statement (.ldDt x) := of_and (and_wordX _ x _) rfl
theorem ldSt (x : Reg) : Statement (.ldSt x) := of_and (and_wordX _ x _) rfl
theorem addI (x : Reg) : Statement (.addI x) := of_and (and_wordX _ x _) rfl
theorem ldF (x : Reg) : Statement (.ldF x) := of_and (and_wordX _ x _) rfl
theorem ldB (x : Reg) : Statement (.ldB x) := of_and (and_wordX _ x _) rfl
theorem stRegs (x : Reg) : Statement (.stRegs x) := of_and (and_wordX _ x _) rfl
theorem ldRegs (x : Reg) : Statement (.ldRegs x) := of_and (and_wordX _ x _) rfl

end Sys2Proof.Laws.SelectsRow
end

