-- ==== Sys2Proof/Laws/Registers.lean ====
section
/-! SUPPORT. Reading a register after each write of registers; keys likewise. -/

namespace Sys2Proof.Machine

variable (s : State)

/-- Reading a register after a write gives the value written there, and the old value elsewhere. -/
@[simp] theorem State.reg_setReg (r q : Reg) (b : Byte) :
    (s.setReg r b).reg q = if q = r then b else s.reg q := by
  unfold State.reg State.setReg
  by_cases h : q = r
  · subst h; simp
  · have : r.toNat ≠ q.toNat := fun e => h (BitVec.eq_of_toNat_eq e.symm)
    simp [h, this]

@[simp] theorem State.reg_setFlag (q : Reg) (f : Bool) :
    (s.setFlag f).reg q = if q = flagReg then flagByte f else s.reg q := by
  simp [State.setFlag]

/-- The flag is written last, so it is what `V[F]` holds (R132). -/
@[simp] theorem State.reg_setResult (x q : Reg) (b : Byte) (f : Bool) :
    (s.setResult x b f).reg q = if q = flagReg then flagByte f else if q = x then b else s.reg q := by
  simp [State.setResult]

@[simp] theorem State.key_setKey (k j : Key) (d : Bool) :
    (s.setKey k d).key j = if j = k then d else s.key j := by
  unfold State.key State.setKey
  by_cases h : j = k
  · subst h; simp
  · have : k.toNat ≠ j.toNat := fun e => h (BitVec.eq_of_toNat_eq e.symm)
    simp [h, this]

@[simp] theorem flagByte_true : flagByte true = 1 := rfl
@[simp] theorem flagByte_false : flagByte false = 0 := rfl

/-- A flag write stores 0 or 1 (R22). -/
theorem flagByte_cases (f : Bool) : flagByte f = 0 ∨ flagByte f = 1 := by
  cases f <;> simp

/-- A block load writes nothing but registers. -/
theorem loadRegsFrom_eq (src t : State) (a n : Nat) :
    loadRegsFrom src a n t = { t with v := (loadRegsFrom src a n t).v } := by
  induction n with
  | zero => rfl
  | succ n ih => rw [loadRegsFrom, ih]; rfl

/-- A block load of `n` registers: `V[k]` for `k < n` holds the byte at `a + k`, the others are as before (R145). -/
theorem reg_loadRegsFrom (src t : State) (a n : Nat) (hn : n ≤ 16) (q : Reg) :
    (loadRegsFrom src a n t).reg q = if q.toNat < n then src.peek (a + q.toNat) else t.reg q := by
  induction n with
  | zero => simp [loadRegsFrom]
  | succ n ih =>
    have h16 : n < 16 := by omega
    rw [loadRegsFrom, State.reg_setReg, ih (by omega)]
    by_cases e : q = BitVec.ofNat 4 n
    · simp [e, Nat.mod_eq_of_lt h16]
    · have : q.toNat ≠ n := fun h => e (BitVec.eq_of_toNat_eq (by rw [BitVec.toNat_ofNat]; omega))
      simp only [e, if_false]
      by_cases h : q.toNat < n
      · simp [h, Nat.lt_succ_of_lt h]
      · simp [h, show ¬ q.toNat < n + 1 by omega]

end Sys2Proof.Machine
end

