-- ==== Sys2Proof/Laws/Step.lean ====
section
/-! SUPPORT. What a step can do, said once: it waits, it meets an unknown word, or it executes an instruction; then
comes the timer phase. -/

namespace Sys2Proof.Machine

/-- If the instruction phase answers `next t`, one of three things happened (R91, R95, R96). -/
theorem instructionPhase_cases {s t : State} (h : instructionPhase s = .next t) :
    (s.wait = true ∧ t = s) ∨
    (s.wait = false ∧ (∃ e, decode s.fetchWord = .error e) ∧ t = s.advance.warnUnknown) ∨
    (∃ i, s.executes i ∧ exec i s.advance = .next t) := by
  unfold instructionPhase at h
  by_cases w : s.wait = true
  · rw [if_pos w] at h
    cases h
    exact .inl ⟨w, rfl⟩
  · rw [if_neg w] at h
    have wf : s.wait = false := by simpa using w
    cases hd : decode s.fetchWord with
    | error e =>
      simp only [hd, execUnknown] at h
      cases h
      exact .inr (.inl ⟨wf, ⟨e, rfl⟩, rfl⟩)
    | ok i =>
      simp only [hd] at h
      exact .inr (.inr ⟨i, ⟨wf, hd⟩, h⟩)

/-- If a step answers `next u`, its instruction phase answered some `next t`, and `u` is `t` after the timer phase
(R90). -/
theorem step_next {s u : State} (h : step s = .next u) :
    ∃ t, instructionPhase s.beginStep = .next t ∧ u = t.finishStep := by
  unfold step cycle at h
  cases hp : instructionPhase s.beginStep with
  | next t => rw [hp] at h; cases h; exact ⟨t, rfl, rfl⟩
  | fault f => rw [hp] at h; cases h
  | refused r => rw [hp] at h; cases h

/-- What a step that answers `next u` did, in terms of the state before it. -/
theorem step_cases {s u : State} (h : step s = .next u) :
    (s.wait = true ∧ u = s.beginStep.finishStep) ∨
    (s.wait = false ∧ (∃ e, decode s.fetchWord = .error e) ∧ u = s.dispatched.warnUnknown.finishStep) ∨
    (∃ i t, s.executes i ∧ exec i s.dispatched = .next t ∧ u = t.finishStep) := by
  obtain ⟨t, ht, rfl⟩ := step_next h
  rcases instructionPhase_cases ht with ⟨w, rfl⟩ | ⟨w, e, rfl⟩ | ⟨i, hi, he⟩
  · exact .inl ⟨w, rfl⟩
  · exact .inr (.inl ⟨w, e, rfl⟩)
  · exact .inr (.inr ⟨i, t, hi, he, rfl⟩)

/-- A timer after a decrement (R183). -/
theorem countDown_toNat (tick : Bool) (c : Byte) :
    (countDown tick c).toNat = if tick then c.toNat - 1 else c.toNat := by
  unfold countDown
  have hc := c.isLt
  by_cases h : c = 0
  · subst h; cases tick <;> rfl
  · have : c.toNat ≠ 0 := fun e => h (BitVec.eq_of_toNat_eq (by simpa using e))
    rw [if_neg h]
    cases tick
    · rfl
    · rw [if_pos rfl, if_pos rfl, BitVec.toNat_sub]
      simp
      omega

end Sys2Proof.Machine
end

