-- ==== Sys2Proof/Tests/Slice0.lean ====
section
/-! SUPPORT. The smoke test of well-formedness, words written out from the spec's patterns, single steps of the spec's
test vectors (95_test_vectors.md, whose ids S<n> and T<n> the comments give), and a witness for every statement that
has hypotheses. -/

namespace Sys2Proof.Tests

open Sys2Proof Sys2Proof.Machine

/-! ## Well-formedness: the canonical form refuses a non-zero ignored field (R78, R86) -/

theorem test_wellFormed_refuses_seReg : (Instr.seReg 1 2 1).wellFormed = false := by decide
theorem test_wellFormed_refuses_sneReg : (Instr.sneReg 1 2 0xF).wellFormed = false := by decide
theorem test_wellFormed_refuses_shr : (Instr.shr 1 2).wellFormed = false := by decide
theorem test_wellFormed_refuses_shl : (Instr.shl 1 2).wellFormed = false := by decide
theorem test_wellFormed_accepts :
    (Instr.seReg 1 2 0).wellFormed = true ∧ (Instr.shr 1 0).wellFormed = true ∧ Instr.cls.wellFormed = true := by decide

/-- Canonical instructions are fixed, and the canonical form of an alias is well formed. -/
theorem test_canonical_wellFormed (i : Instr) :
    i.canonical.wellFormed = true ∧ (i.wellFormed = true → i.canonical = i) := by
  cases i <;> simp [Instr.canonical, Instr.wellFormed] <;> exact fun h => h.symm

/-! ## Words written out from the patterns of R76, every constructor -/

theorem test_decode_control :
    decode 0x00E0 = .ok .cls ∧ decode 0x00EE = .ok .ret ∧ decode 0x1ABD = .ok (.jp 0xABD) ∧
    decode 0x2300 = .ok (.call 0x300) ∧ decode 0x3A10 = .ok (.seImm 0xA 0x10) ∧
    decode 0x4A10 = .ok (.sneImm 0xA 0x10) ∧ decode 0x5120 = .ok (.seReg 1 2 0) ∧
    decode 0x912F = .ok (.sneReg 1 2 0xF) ∧ decode 0xBFFF = .ok (.jpV0 0xFFF) := by decide

theorem test_decode_alu :
    decode 0x609D = .ok (.ldImm 0 0x9D) ∧ decode 0x7FFF = .ok (.addImm 0xF 0xFF) ∧
    decode 0x8EF0 = .ok (.ldReg 0xE 0xF) ∧ decode 0x8121 = .ok (.orReg 1 2) ∧ decode 0x8122 = .ok (.andReg 1 2) ∧
    decode 0x8123 = .ok (.xorReg 1 2) ∧ decode 0x8124 = .ok (.addReg 1 2) ∧ decode 0x8125 = .ok (.subReg 1 2) ∧
    decode 0x8126 = .ok (.shr 1 2) ∧ decode 0x8127 = .ok (.subnReg 1 2) ∧ decode 0x810E = .ok (.shl 1 0) ∧
    decode 0xC1F0 = .ok (.rnd 1 0xF0) := by decide

theorem test_decode_memory_and_display :
    decode 0xAFFF = .ok (.ldI 0xFFF) ∧ decode 0xF11E = .ok (.addI 1) ∧ decode 0xF029 = .ok (.ldF 0) ∧
    decode 0xF033 = .ok (.ldB 0) ∧ decode 0xF355 = .ok (.stRegs 3) ∧ decode 0xF265 = .ok (.ldRegs 2) ∧
    decode 0xD125 = .ok (.drw 1 2 5) := by decide

theorem test_decode_keys_and_timers :
    decode 0xE19E = .ok (.skp 1) ∧ decode 0xE1A1 = .ok (.sknp 1) ∧ decode 0xF207 = .ok (.ldFromDt 2) ∧
    decode 0xF30A = .ok (.ldKey 3) ∧ decode 0xF115 = .ok (.ldDt 1) ∧ decode 0xF118 = .ok (.ldSt 1) := by decide

/-- Unknown words of each group (T1 to T5). -/
theorem test_decode_unknown :
    decode 0x0000 = .error .unknownGroup0 ∧ decode 0x00E1 = .error .unknownGroup0 ∧
    decode 0x8128 = .error .unknownGroup8 ∧ decode 0xE100 = .error .unknownGroupE ∧
    decode 0xF000 = .error .unknownGroupF ∧ decodeBytes [0x00] = .error .truncated := by decide

/-- Table words as the host numbers them: `8XY4` with its mask bits only, and a word with its operands. -/
theorem test_decodeTableWord :
    decodeTableWord 16 0x8004 = some (.addReg 0 0) ∧ decodeTableWord 16 0xD125 = some (.drw 1 2 5) ∧
    decodeTableWord 16 0x8008 = none := by decide

/-! ## Small states and single steps -/

/-- The start state of the vectors: after reset, `tick = 0` and `rnd = 0`. -/
def start : State := State.reset.supply false 0

/-- Bytes in memory. -/
def poke (s : State) (a : Nat) (bs : List Byte) : State := s.setMem (memWriteAll s.mem a bs)

/-- Cells lit. -/
def light (s : State) (cells : List Nat) : State := s.setFb (cells.foldl fbFlip s.fb)

/-- A stack. -/
def stacked (s : State) (entries : List Word) : State := entries.foldl State.push s

/-- The state a step answers. -/
def after (s : State) : State :=
  match step s with
  | .next u => u
  | .fault _ => s
  | .refused _ => s

/-- The step of a word placed at `PC`. -/
def run (op : Word) (s : State) : State := after (s.placeWord op)

/-- Exactly these cells are lit. -/
def lit (s : State) (cells : List Nat) : Bool := s.fb == (light State.reset cells).fb

/-! ### Step cycle -/

/-- T3. -/
theorem test_unknown_word :
    (run 0x8128 start).pc = 0x202 ∧ (run 0x8128 start).out = ⟨none, true, false, false⟩ := by decide
/-- T9, T10: the top of `PC` wraps. -/
theorem test_unknown_above_memory :
    (after (start.setPc 0x1000)).pc = 0x1002 ∧ (after (start.setPc 0xFFFE)).pc = 0 ∧
    (after (start.setPc 0x1000)).out = ⟨none, true, true, false⟩ := by decide
/-- T6: an odd `PC`. -/
theorem test_fetch_odd :
    (after ((poke start 0x201 [0x61, 0x07]).setPc 0x201)).reg 1 = 7 := by decide
/-- T8: the last byte of memory and a byte read as 0 make `CALL 0x300`. -/
theorem test_fetch_at_the_edge :
    (after ((poke start 0xFFF [0x23]).setPc 0xFFF)).pc = 0x300 ∧
    (after ((poke start 0xFFF [0x23]).setPc 0xFFF)).stack = [0x1001] ∧
    (after ((poke start 0xFFF [0x23]).setPc 0xFFF)).out = ⟨none, false, true, false⟩ := by decide
/-- T12: a waiting step ticks the timers only. -/
theorem test_waiting_step :
    (after ((((poke start 0x200 [0xF1, 0x0A]).setWait true).setDt 3).supply true 0x55)).dt = 2 ∧
    (after ((((poke start 0x200 [0xF1, 0x0A]).setWait true).setDt 3).supply true 0x55)).pc = 0x200 := by decide
/-- T166: running without a load. -/
theorem test_step_after_reset :
    (after State.reset).pc = 0x202 ∧ (after State.reset).out.unknownOpcode = true := by decide
/-- An instruction placed by the host's function is the first one executed. -/
theorem test_withFetchWord :
    (after (State.reset.withFetchWord 16 0x6A12)).reg 0xA = 0x12 := by decide

/-! ### Control transfer -/

/-- T20, T149: the underflow, and the timers still tick. -/
theorem test_ret_underflow :
    (run 0x00EE ((start.setDt 2).supply true 0)).pc = 0x200 ∧ (run 0x00EE ((start.setDt 2).supply true 0)).dt = 1 ∧
    (run 0x00EE ((start.setDt 2).supply true 0)).out.faultCode = 2 := by decide
/-- T21. -/
theorem test_ret :
    (run 0x00EE (stacked start [0x0ABC, 0x0345])).pc = 0x345 ∧
    (run 0x00EE (stacked start [0x0ABC, 0x0345])).stack = [0x0ABC] := by decide
/-- T25: an odd target. -/
theorem test_jp : (run 0x1ABD start).pc = 0xABD := by decide
/-- T26. -/
theorem test_call_sixteenth_entry :
    (run 0x2300 (stacked start (List.replicate 15 0))).pc = 0x300 ∧
    (run 0x2300 (stacked start (List.replicate 15 0))).top = some 0x202 ∧
    (run 0x2300 (stacked start (List.replicate 15 0))).sp = 16 := by decide
/-- T27. -/
theorem test_call_overflow :
    (run 0x2300 (stacked start (List.replicate 16 0))).pc = 0x200 ∧
    (run 0x2300 (stacked start (List.replicate 16 0))).sp = 16 ∧
    (run 0x2300 (stacked start (List.replicate 16 0))).out.faultCode = 1 := by decide
/-- T29, T30. -/
theorem test_seImm :
    (run 0x3A10 (start.setReg 0xA 0x10)).pc = 0x204 ∧ (run 0x3A10 (start.setReg 0xA 0x11)).pc = 0x202 := by decide
/-- T31, T32. -/
theorem test_sneImm :
    (run 0x4A10 (start.setReg 0xA 0x10)).pc = 0x202 ∧ (run 0x4A10 (start.setReg 0xA 0x11)).pc = 0x204 := by decide
/-- T34, T36. -/
theorem test_seReg :
    (run 0x5120 ((start.setReg 1 7).setReg 2 8)).pc = 0x202 ∧
    (run 0x5121 ((start.setReg 1 7).setReg 2 7)).pc = 0x204 := by decide
/-- T38, T39. -/
theorem test_sneReg :
    (run 0x9120 ((start.setReg 1 7).setReg 2 7)).pc = 0x202 ∧
    (run 0x912F ((start.setReg 1 7).setReg 2 8)).pc = 0x204 := by decide
/-- T41: not reduced to 12 bits. -/
theorem test_jpV0 : (run 0xBFFF (start.setReg 0 0xFF)).pc = 0x10FE := by decide

/-! ### Loads, arithmetic, logic, shifts, random -/

/-- T51. -/
theorem test_ldImm : (run 0x6F07 start).reg 0xF = 7 ∧ (run 0x6F07 start).pc = 0x202 := by decide
/-- T53, T54: no carry. -/
theorem test_addImm :
    (run 0x7001 (start.setReg 0 0xFF)).reg 0 = 0 ∧ (run 0x7001 (start.setReg 0 0xFF)).reg 0xF = 0 ∧
    (run 0x7FFF (start.setReg 0xF 1)).reg 0xF = 0 := by decide
/-- T55. -/
theorem test_ldReg : (run 0x8EF0 (start.setReg 0xF 1)).reg 0xE = 1 := by decide
/-- T56: `V[F]` is not reset. -/
theorem test_orReg :
    (run 0x8121 (((start.setReg 1 0x0F).setReg 2 0xF0).setReg 0xF 1)).reg 1 = 0xFF ∧
    (run 0x8121 (((start.setReg 1 0x0F).setReg 2 0xF0).setReg 0xF 1)).reg 0xF = 1 := by decide
/-- T57. -/
theorem test_andReg : (run 0x8122 ((start.setReg 1 0x3C).setReg 2 0x0F)).reg 1 = 0x0C := by decide
/-- T58. -/
theorem test_xorReg : (run 0x8123 ((start.setReg 1 0xFF).setReg 2 0x0F)).reg 1 = 0xF0 := by decide
/-- T60. -/
theorem test_addReg_carry :
    (run 0x8124 ((start.setReg 1 0xFF).setReg 2 1)).reg 1 = 0 ∧
    (run 0x8124 ((start.setReg 1 0xFF).setReg 2 1)).reg 0xF = 1 := by decide
/-- T64, T65: `V[F]` as destination and as source. -/
theorem test_addReg_flag_register :
    (run 0x8F14 ((start.setReg 0xF 0xFF).setReg 1 2)).reg 0xF = 1 ∧
    (run 0x81F4 ((start.setReg 1 0x10).setReg 0xF 1)).reg 1 = 0x11 ∧
    (run 0x81F4 ((start.setReg 1 0x10).setReg 0xF 1)).reg 0xF = 0 := by decide
/-- T67. -/
theorem test_subReg_borrow :
    (run 0x8125 ((start.setReg 1 3).setReg 2 5)).reg 1 = 0xFE ∧
    (run 0x8125 ((start.setReg 1 3).setReg 2 5)).reg 0xF = 0 := by decide
/-- T68: equal operands give flag 0. -/
theorem test_subReg_equal :
    (run 0x8125 (((start.setReg 1 7).setReg 2 7).setReg 0xF 1)).reg 1 = 0 ∧
    (run 0x8125 (((start.setReg 1 7).setReg 2 7).setReg 0xF 1)).reg 0xF = 0 := by decide
/-- T71: `V[Y]` is ignored. -/
theorem test_shr :
    (run 0x8126 ((start.setReg 1 0xB3).setReg 2 0xFF)).reg 1 = 0x59 ∧
    (run 0x8126 ((start.setReg 1 0xB3).setReg 2 0xFF)).reg 0xF = 1 := by decide
/-- T73. -/
theorem test_shr_flag_register : (run 0x8F06 (start.setReg 0xF 3)).reg 0xF = 1 := by decide
/-- T74, T76. -/
theorem test_subnReg :
    (run 0x8127 ((start.setReg 1 3).setReg 2 5)).reg 1 = 2 ∧
    (run 0x8127 ((start.setReg 1 3).setReg 2 5)).reg 0xF = 1 ∧
    (run 0x8127 (((start.setReg 1 7).setReg 2 7).setReg 0xF 1)).reg 0xF = 0 := by decide
/-- T77, T78. -/
theorem test_shl :
    (run 0x810E (start.setReg 1 0xB3)).reg 1 = 0x66 ∧ (run 0x810E (start.setReg 1 0xB3)).reg 0xF = 1 ∧
    (run 0x810E (start.setReg 1 0x40)).reg 0xF = 0 := by decide
/-- T81, T82. -/
theorem test_rnd :
    (run 0xC10F (start.supply false 0xA7)).reg 1 = 0x07 ∧
    (run 0xC1F0 (start.supply false 0xA7)).reg 1 = 0xA0 := by decide

/-! ### Index and memory transfer -/

/-- T91. -/
theorem test_ldI : (run 0xAFFF start).i = 0x0FFF := by decide
/-- T93, T94. -/
theorem test_addI :
    (run 0xF11E ((start.setI 0x0FFF).setReg 1 1)).i = 0x1000 ∧ (run 0xF11E ((start.setI 0xFFFF).setReg 1 1)).i = 0 ∧
    (run 0xF11E ((start.setI 0xFFFF).setReg 1 1)).reg 0xF = 0 := by decide
/-- T97: no nibble mask. -/
theorem test_ldF : (run 0xF029 (start.setReg 0 0xFF)).i = 0x04FB := by decide
/-- S8. -/
theorem test_ldB :
    (List.range 3).map (fun k => (run 0xF033 ((start.setReg 0 157).setI 0x300)).peek (0x300 + k)) = [1, 5, 7] := by
  decide
/-- T100: the ones digit is dropped. -/
theorem test_ldB_at_the_edge :
    (run 0xF033 ((start.setReg 0 255).setI 0xFFE)).peek 0xFFF = 5 ∧
    (run 0xF033 ((start.setReg 0 255).setI 0xFFE)).peek 0x1000 = 0 ∧
    (run 0xF033 ((start.setReg 0 255).setI 0xFFE)).out.memOob = true := by decide
/-- T101. -/
theorem test_stRegs :
    (List.range 4).map (fun k => (run 0xF255 ((((start.setReg 0 0x11).setReg 1 0x22).setReg 2 0x33).setReg 3 0x44
      |>.setI 0x300)).peek (0x300 + k)) = [0x11, 0x22, 0x33, 0] := by decide
/-- T103. -/
theorem test_stRegs_at_the_edge :
    (run 0xF355 (((start.setReg 0 1).setReg 1 2).setI 0xFFE)).mem = [(0x200, 0xF3), (0x201, 0x55), (0xFFE, 1), (0xFFF, 2)] ∧
    (run 0xF355 (((start.setReg 0 1).setReg 1 2).setI 0xFFE)).out.memOob = true ∧
    (run 0xF355 (((start.setReg 0 1).setReg 1 2).setI 0xFFE)).i = 0xFFE := by decide
/-- T104. -/
theorem test_ldRegs :
    (List.range 4).map (fun k => (run 0xF265 ((poke (start.setReg 3 0x77) 0x300 [1, 5, 7, 9]).setI 0x300)).reg
      (BitVec.ofNat 4 k)) = [1, 5, 7, 0x77] := by decide
/-- T105. -/
theorem test_ldRegs_at_the_edge :
    (run 0xF165 ((poke (start.setReg 1 9) 0xFFF [0xAB]).setI 0xFFF)).reg 0 = 0xAB ∧
    (run 0xF165 ((poke (start.setReg 1 9) 0xFFF [0xAB]).setI 0xFFF)).reg 1 = 0 ∧
    (run 0xF165 ((poke (start.setReg 1 9) 0xFFF [0xAB]).setI 0xFFF)).out.memOob = true := by decide

/-! ### Display -/

/-- T110: `V[F]` is not written. -/
theorem test_cls :
    lit (run 0x00E0 ((light start [0, 100, 2047]).setReg 0xF 1)) [] = true ∧
    (run 0x00E0 ((light start [0, 100, 2047]).setReg 0xF 1)).reg 0xF = 1 := by decide
/-- T111: a collision. -/
theorem test_drw_collision :
    lit (run 0xD011 ((light (poke start 0x300 [0xC0]) [1, 2]).setI 0x300)) [0, 2] = true ∧
    (run 0xD011 ((light (poke start 0x300 [0xC0]) [1, 2]).setI 0x300)).reg 0xF = 1 := by decide
/-- T114, T115: the spill into the next row and the clip at index 2047. -/
theorem test_drw_edges :
    lit (run 0xD011 (((poke start 0x300 [0xFF]).setI 0x300).setReg 0 62)) [62, 63, 64, 65, 66, 67, 68, 69] = true ∧
    lit (run 0xD011 ((((poke start 0x300 [0xFF]).setI 0x300).setReg 0 60).setReg 1 31)) [2044, 2045, 2046, 2047] = true := by
  decide

/-! ### Keys and timers -/

/-- T131, T132: the low four bits select the key. -/
theorem test_skp :
    (run 0xE19E (start.setReg 1 5)).pc = 0x202 ∧
    (run 0xE19E ((start.setReg 1 0x15).setKey 5 true)).pc = 0x204 := by decide
/-- T133, T134. -/
theorem test_sknp :
    (run 0xE1A1 (start.setReg 1 5)).pc = 0x204 ∧
    (run 0xE1A1 ((start.setReg 1 0x15).setKey 5 true)).pc = 0x202 := by decide
/-- T140: read before the tick. -/
theorem test_ldFromDt :
    (run 0xF207 ((start.setDt 5).supply true 0)).reg 2 = 5 ∧
    (run 0xF207 ((start.setDt 5).supply true 0)).dt = 4 := by decide
/-- T135: a held key does not resolve. -/
theorem test_ldKey :
    (run 0xF30A (start.setKey 4 true)).wait = true ∧ (run 0xF30A (start.setKey 4 true)).pc = 0x200 ∧
    (run 0xF30A (start.setKey 4 true)).reg 3 = 0 := by decide
/-- T142: written, then decremented. -/
theorem test_ldDt : (run 0xF115 ((start.setReg 1 1).supply true 0)).dt = 0 := by decide
/-- T143, T144: the beep is the decrement from 1. -/
theorem test_ldSt :
    (run 0xF118 ((start.setReg 1 1).supply true 0)).out.beep = true ∧
    (run 0xF118 ((start.setReg 1 2).supply true 0)).out.beep = false ∧
    (run 0xF118 ((start.setReg 1 2).supply true 0)).st = 1 := by decide

/-! ### Host transactions -/

/-- T137. -/
theorem test_keyDown_resolves :
    (((run 0xF30A start).keyDown 4).reg 3 = 4) ∧ ((run 0xF30A start).keyDown 4).wait = false ∧
    ((run 0xF30A start).keyDown 4).pc = 0x202 ∧ ((run 0xF30A start).keyDown 4).key 4 = true := by decide
/-- T139: the register index is read again from the word at `PC`. -/
theorem test_keyDown_reads_the_word_again :
    (((run 0xF30A start).load [0x6A, 0x00] 0x200).keyDown 2).reg 0xA = 2 := by decide
/-- T136, T138. -/
theorem test_keyUp :
    ((run 0xF30A (start.setKey 4 true)).keyUp 4).key 4 = false ∧
    ((run 0xF30A (start.setKey 4 true)).keyUp 4).wait = true ∧ (start.keyDown 9).key 9 = true ∧
    (start.keyDown 9).pc = 0x200 := by decide
/-- T162 to T164: the bound is `offset + len ≤ 4096`. -/
theorem test_load_bounds :
    loadFits [0xAA, 0xBB] 0xFFE = true ∧ loadFits [0xAA] 0x1000 = false ∧
    (start.load [0xAA, 0xBB] 0xFFE).peekWord 0xFFE = 0xAABB ∧ start.load [0xAA] 0x1000 = start := by decide
/-- T165 with no offset given: the image goes to 0x200, and nothing else changes. -/
theorem test_load_default :
    transact (.load [0x12, 0x00] none) ((start.setPc 0x2A0).setReg 3 9) =
      .next (poke ((start.setPc 0x2A0).setReg 3 9) 0x200 [0x12, 0x00], .loaded) := rfl
/-- T160. -/
theorem test_reset :
    ((((poke start 0 [0]).setWait true).setKey 3 true).setDt 9).doReset.peek 0 = 0xF0 ∧
    ((((poke start 0 [0]).setWait true).setKey 3 true).setDt 9).doReset.key 3 = false ∧
    ((((poke start 0 [0]).setWait true).setKey 3 true).setDt 9).doReset.wait = false := by decide

/-! ## Witnesses: for each statement with hypotheses, a state and operands that meet them all -/

/-- `EncodeAfterDecodeGivesTheWord`. -/
theorem test_witness_EncodeAfterDecode : decode 0xFF65 = .ok (.ldRegs 0xF) := by decide
/-- `DecodeFollowsTheOpcodeMap`: a decoded word, a selected row, and two instructions of one row. -/
theorem test_witness_DecodeFollowsTheOpcodeMap :
    decode 0x8124 = .ok (.addReg 1 2) ∧ (Instr.addReg 1 2).row.selects 0x8124 = true ∧
    (Instr.addReg 3 4).row.selects 0x8124 = true ∧ (Instr.subReg 1 2).row.selects 0x8124 = false := by decide
/-- `UnknownWordsAreTheOnesListed`: each group at the edges of its lists. -/
theorem test_witness_UnknownWords :
    decode 0x0FFF = .error .unknownGroup0 ∧ decode 0x800D = .error .unknownGroup8 ∧
    decode 0x800F = .error .unknownGroup8 ∧ decode 0xEFFF = .error .unknownGroupE ∧
    decode 0xFF66 = .error .unknownGroupF ∧ decode 0x800E = .ok (.shl 0 0) := by decide
/-- `StepRunsTheDecodedInstruction`: an executed instruction, at 0x200 and at the edge of memory. -/
theorem test_witness_StepRuns :
    (start.placeWord 0x6A12).executes (.ldImm 0xA 0x12) ∧
    ((poke start 0xFFF [0x23]).setPc 0xFFF).executes (.call 0x300) := ⟨⟨by decide, by decide⟩, ⟨by decide, by decide⟩⟩
/-- `WaitingStepExecutesNothing`, `WaitingTimersReachZeroAfterThatManyTicks`. -/
theorem test_witness_Waiting : (start.setWait true).wait = true := by decide
/-- `UnknownWordIsANoOp`: after reset, and with `PC` above memory. -/
theorem test_witness_UnknownWord :
    State.reset.wait = false ∧ decode State.reset.fetchWord = .error .unknownGroup0 ∧
    decode (start.setPc 0x1000).fetchWord = .error .unknownGroup0 := by decide
/-- `OnlyCallAndRetRaiseAFault`: a fault is raised. -/
theorem test_witness_Fault : (start.raiseFault .stackUnderflow).out.fault ≠ start.out.fault := by decide
/-- `FetchIsBigEndianAtAnyPc`: the last `PC` inside memory, and the first above it. -/
theorem test_witness_Fetch :
    ((poke start 0xFFF [0x23]).setPc 0xFFF).fetchWord = 0x2300 ∧ 4095 < (start.setPc 0x1000).pc.toNat ∧
    (start.setPc 0x1000).fetchWord = 0 := by decide
/-- `FetchSeesStoredBytes`: at the last address that has two bytes. -/
theorem test_witness_FetchSeesStoredBytes :
    (start.setPc 4094).Inv ∧ (start.setPc 4094).pc.toNat + 1 ≤ 4095 ∧
    ((start.setPc 4094).storeBytes 4094 [0x12, 0x34]).fetchWord = 0x1234 := ⟨⟨by decide, by decide⟩, by decide, by decide⟩
/-- `ByteAccessesAreBoundsChecked`: 4095 and 4096. -/
theorem test_witness_ByteAccesses :
    Memory.wf ([] : Memory) = true ∧ memRead (memWrite [] 4095 7) 4095 = 7 ∧ memWrite [] 4096 7 = [] ∧
    memRead [] 4096 = 0 ∧ memRead (memWrite [] 4095 7) 4094 = 0 := by decide
/-- `TimersRiseOnlyByTheirLoads`: a step that loads no timer, and one that does. -/
theorem test_witness_TimersRise :
    (∃ u, step (start.setDt 5) = .next u) ∧ (∀ x, ¬ (start.setDt 5).executes (.ldDt x)) ∧
    (∀ x, ¬ (start.setDt 5).executes (.ldSt x)) ∧ (start.placeWord 0xF115).executes (.ldDt 1) :=
  ⟨⟨_, rfl⟩, fun _ h => (nomatch h.2), fun _ h => (nomatch h.2), ⟨by decide, by decide⟩⟩
/-- `TickedTimersLoseOneAStep`: a run of two ticked steps of a running machine, which loads no timer (S9). -/
theorem test_witness_TickedTimers :
    ∃ run : Nat → State, (run 0).dt = 5 ∧ (run 0).wait = false ∧
      (∀ k < 2, step ((run k).supply true 0) = .next (run (k + 1))) ∧
      (∀ k < 2, ∀ x, ¬ (run k).executes (.ldDt x)) ∧ (∀ k < 2, ∀ x, ¬ (run k).executes (.ldSt x)) := by
  refine ⟨fun k => (fun s => after (s.supply true 0))^[k] (start.setDt 5), rfl, rfl, ?_, ?_, ?_⟩ <;>
    intro k hk <;> interval_cases k <;> first | rfl | exact fun _ h => (nomatch h.2)
/-- `CallPushesTheReturnAddress` and `StackFaultsWriteNothing`: 15 entries, 16 entries and none. -/
theorem test_witness_Call :
    (stacked start (List.replicate 15 0)).sp < 16 ∧ 16 ≤ (stacked start (List.replicate 16 0)).sp ∧ start.sp = 0 := by
  decide
/-- `RetPopsTheNewestEntry`. -/
theorem test_witness_Ret : (stacked start [0x0ABC, 0x0345]).stack = [0x0ABC] ++ [0x0345] := by decide
/-- `StackFaultsRepeatForever`: a `CALL` on a full stack, a `RET` on an empty one. -/
theorem test_witness_StackFaultsRepeat :
    ((stacked start (List.replicate 16 0)).placeWord 0x2300).executes (.call 0x300) ∧
    16 ≤ ((stacked start (List.replicate 16 0)).placeWord 0x2300).sp ∧
    (start.placeWord 0x00EE).executes .ret ∧ (start.placeWord 0x00EE).sp = 0 :=
  ⟨⟨by decide, by decide⟩, by decide, ⟨by decide, by decide⟩, by decide⟩
/-- The encoding clauses of `JumpSetsPc`, `ImmediateSkipsTestTheRegister` and
`LoadsAndAddImmediateWriteOneRegister`. -/
theorem test_witness_masks :
    (0x1ABD : Word) &&& 0xF000 = 0x1000 ∧ (0x3A10 : Word) &&& 0xF000 = 0x3000 ∧ (0x4A10 : Word) &&& 0xF000 = 0x4000 ∧
    (0x609D : Word) &&& 0xF000 = 0x6000 ∧ (0x7FFF : Word) &&& 0xF000 = 0x7000 ∧ (0x8EF0 : Word) &&& 0xF00F = 0x8000 := by
  decide
/-- `KeySkipsTestTheLatch`: a value above 15. -/
theorem test_witness_KeySkips : (5 : Key).toNat = ((start.setReg 1 0x15).reg 1).toNat % 16 := by decide
/-- `RandomByteIsMasked`: the last clause. -/
theorem test_witness_RandomByte : start.inputs.rnd = some 0 := by decide
/-- `RandomInputReachesOnlyRnd`: a step that executes no `RND`. -/
theorem test_witness_RandomInput : ∀ x nn, ¬ State.reset.executes (.rnd x nn) := fun _ _ h => nomatch h.2
/-- `FlagIsWrittenByItsInstructionsOnly`, `UnwrittenRegistersAreUnchanged`, `InstructionsChangeOnlyWhatTheyMay`: an
instruction that sets a flag, one that does not, and one that has `V[F]` as a destination. -/
theorem test_witness_Flag :
    (∃ t, exec (.addReg 1 2) start = .next t) ∧ (Instr.addReg 1 2).setsFlag = true ∧
    (∃ t, exec (.orReg 1 2) start = .next t) ∧ (Instr.orReg 1 2).setsFlag = false ∧
    (Instr.orReg 1 2).writesReg 0xF = false ∧ (Instr.orReg 0xF 2).writesReg 0xF = true :=
  ⟨⟨_, rfl⟩, by decide, ⟨_, rfl⟩, by decide, by decide, by decide⟩
/-- `BcdStoresTheThreeDigits`: the three digits in range at 4093, each dropped in turn from 4094 up. -/
theorem test_witness_Bcd :
    (start.setI 4093).Inv ∧ (start.setI 4093).i.toNat + 2 ≤ 4095 ∧ ¬ (start.setI 4094).i.toNat + 2 ≤ 4095 ∧
    (start.setI 4094).i.toNat + 1 ≤ 4095 ∧ ¬ (start.setI 4095).i.toNat + 1 ≤ 4095 ∧ (start.setI 4095).i.toNat ≤ 4095 ∧
    ¬ (start.setI 4096).i.toNat ≤ 4095 := ⟨⟨by decide, by decide⟩, by decide, by decide, by decide, by decide, by decide, by decide⟩
/-- `StoreRegistersWritesTheRange`, `LoadRegistersReadsTheRange`: the last register stored in range, the first out. -/
theorem test_witness_StoreRegisters :
    (start.setI 4094).Inv ∧ (1 : Reg).toNat ≤ (3 : Reg).toNat ∧ (start.setI 4094).i.toNat + (1 : Reg).toNat ≤ 4095 ∧
    4095 < (start.setI 4094).i.toNat + (2 : Reg).toNat := ⟨⟨by decide, by decide⟩, by decide, by decide, by decide⟩
/-- `LoadAfterStoreRestoresTheRegisters`: the last register at the last address. -/
theorem test_witness_LoadAfterStore :
    ((start.setReg 0 9).setI 4092).Inv ∧ ((start.setReg 0 9).setI 4092).i.toNat + (3 : Reg).toNat ≤ 4095 ∧
    ∃ t, exec (.stRegs 3) ((start.setReg 0 9).setI 4092) = .next t ∧ (t.setReg 0 0).i = t.i ∧ (t.setReg 0 0).mem = t.mem :=
  ⟨⟨by decide, by decide⟩, by decide, _, rfl, rfl, rfl⟩
/-- `DrawXorsTheSprite`: a 1 bit of the sprite falls on cell 1 and not on cell 8; cell 1 is lit, or not. -/
theorem test_witness_Draw :
    ((poke start 0x300 [0xC0]).setI 0x300).spriteOn 0 1 1 1 ∧
    (light ((poke start 0x300 [0xC0]).setI 0x300) [1]).cell 1 = true ∧
    ((poke start 0x300 [0xC0]).setI 0x300).cell 1 = false ∧
    ¬ ((poke start 0x300 [0xC0]).setI 0x300).spriteOn 0 1 1 8 := by
  refine ⟨⟨0, by decide, 1, by decide, by decide, by decide⟩, by decide, by decide, ?_⟩
  rintro ⟨row, h1, col, h2, h3, -⟩
  simp only [pixelIndex, show (((poke start 0x300 [0xC0]).setI 0x300).reg 0).toNat = 0 by decide,
    show (((poke start 0x300 [0xC0]).setI 0x300).reg 1).toNat = 0 by decide,
    show (1 : Nibble).toNat = 1 by decide] at h1 h3
  omega
/-- `DrawTwiceRestoresTheDisplay`: the second draw starts in the state the first one leaves. -/
theorem test_witness_DrawTwice :
    ∃ t, exec (.drw 0 1 1) ((poke start 0x300 [0xF0]).setI 0x300) = .next t ∧
      t.reg 0 = ((poke start 0x300 [0xF0]).setI 0x300).reg 0 ∧ t.reg 1 = ((poke start 0x300 [0xF0]).setI 0x300).reg 1 ∧
      t.i = ((poke start 0x300 [0xF0]).setI 0x300).i ∧ ∀ a, t.peek a = ((poke start 0x300 [0xF0]).setI 0x300).peek a :=
  ⟨_, rfl, by decide, by decide, by decide, fun _ => rfl⟩
/-- `KeyDownResolvesAWait`: waiting, and not waiting. -/
theorem test_witness_KeyDown : (start.setWait true).wait = true ∧ start.wait = false := by decide
/-- `WaitForKeyThenKeyDownLoadsTheCode`. -/
theorem test_witness_WaitForKeyThenKeyDown :
    (start.placeWord 0xF30A).executes (.ldKey 3) ∧ ∃ u, step (start.placeWord 0xF30A) = .next u :=
  ⟨⟨by decide, by decide⟩, _, rfl⟩
/-- `OnlyKeyDownOrResetEndsAWait`: both do. -/
theorem test_witness_EndsAWait :
    (start.setWait true).wait = true ∧ ((start.setWait true).keyDown 4).wait = false ∧
    (start.setWait true).doReset.wait = false ∧
    transact (.keyDown 4) (start.setWait true) = .next ((start.setWait true).keyDown 4, .done) :=
  ⟨by decide, by decide, by decide, rfl⟩
/-- `LoadWritesTheImageOrNothing`: the last offset where an image of two bytes fits, and the first where not. -/
theorem test_witness_Load :
    start.Inv ∧ 4094 + [0xAA, 0xBB].length ≤ 4096 ∧ 4096 < 4095 + [0xAA, 0xBB].length ∧ (1 : Nat) < [0xAA, 0xBB].length :=
  ⟨⟨by decide, by decide⟩, by decide, by decide, by decide⟩
/-- `ResetMemoryHoldsTheFont`: the clauses at 79, 80 and 4095. -/
theorem test_witness_ResetMemory :
    State.reset.peek 79 = 0x80 ∧ State.reset.peek 80 = 0 ∧ State.reset.peek 4095 = 0 := by decide
/-- `StepKeepsTheInvariant`, `TransactionsKeepTheInvariant`: a state of the invariant that stores and steps. -/
theorem test_witness_Invariant :
    ((start.setI 0x300).placeWord 0xFF55).Inv ∧ (∃ u, step ((start.setI 0x300).placeWord 0xFF55) = .next u) ∧
    transact (.load [0xAA] (some 0)) start = .next (start.load [0xAA] 0, .loaded) := ⟨⟨by decide, by decide⟩, ⟨_, rfl⟩, rfl⟩
/-- `UnstoredBytesAreUnchanged`: a byte below the stored ones, one above, and the first stored one. -/
theorem test_witness_UnstoredBytes :
    (∃ t, exec (.ldB 0) (start.setI 0x300) = .next t) ∧ 0x2FF < (start.setI 0x300).ea 0 ∧
    (start.setI 0x300).ea 0 + (Instr.ldB 0).storeLength ≤ 0x303 ∧ ¬ 0x300 < (start.setI 0x300).ea 0 :=
  ⟨⟨_, rfl⟩, by decide, by decide, by decide⟩
/-- `TransactionsChangeOnlyWhatTheyMay`: a step that answers, with a record that is not empty; the bytes beside an image
at the default offset; a key beside the one pressed; no wait pending. -/
theorem test_witness_Transactions :
    transact (.step false 0) State.reset = .next (after start, .record ⟨none, true, false, false⟩) ∧
    0x1FF < loadOffset none ∧ loadOffset none + [0xAA, 0xBB].length ≤ 0x202 ∧ (3 : Key) ≠ 4 ∧ start.wait = false :=
  ⟨rfl, by decide, by decide, by decide, by decide⟩
/-- `ParkedProgramStaysParked` (T24). -/
theorem test_witness_Parked : (start.placeWord 0x1200).parked := ⟨0x200, ⟨by decide, by decide⟩, by decide⟩

end Sys2Proof.Tests
end

section
/-! PROOFS. The waiting step (spec 40_step_cycle.md R90, R91): the rules for composing frames, the frame of what every
step does around its instruction phase, and the step under a pending wait. -/

namespace Sys2Proof.Machine

/-! ## Frames compose -/

/-- Agreement on a piece of state is transitive. -/
theorem Part.same_trans {s t u : State} {p : Part} (hst : p.same s t) (htu : p.same t u) : p.same s u := by
  cases p with
  | regs | keys | display | memory => exact fun k => (htu k).trans (hst k)
  | index | pc | stack | delayTimer | soundTimer | waitFlag | record | inputs | rndDraws | tickDraws =>
    exact Eq.trans htu hst

/-- A frame may always list more pieces of state. -/
theorem SameExcept.mono {w w' : List Part} {s t : State} (h : SameExcept w s t) (hw : w ⊆ w') : SameExcept w' s t :=
  fun p hp => h p fun hm => hp (hw hm)

theorem SameExcept.trans {w : List Part} {s t u : State} (hst : SameExcept w s t) (htu : SameExcept w t u) :
    SameExcept w s u :=
  fun p hp => Part.same_trans (hst p hp) (htu p hp)

/-! ## What a step does around its instruction phase (R90) -/

@[simp] theorem State.beginStep_tickValue (s : State) : s.beginStep.tickValue = s.tickValue := rfl

theorem State.beginStep_sameExcept (s : State) : SameExcept [.record] s s.beginStep := by
  intro p hp
  cases p with
  | record => simp at hp
  | regs | index | pc | stack | delayTimer | soundTimer | waitFlag | keys | display | memory | inputs | rndDraws
    | tickDraws => simp [Part.same]

theorem State.finishStep_sameExcept (s : State) : SameExcept timerParts s s.finishStep := by
  intro p hp
  cases p with
  | delayTimer | soundTimer | record | inputs | tickDraws => simp [timerParts] at hp
  | regs | index | pc | stack | waitFlag | keys | display | memory | rndDraws => simp [Part.same]

/-! ## The wait gate (R91) -/

theorem instructionPhase_of_wait {s : State} (hw : s.wait = true) : instructionPhase s = .next s := by
  rw [instructionPhase, if_pos hw]

/-- A waiting step is the bare frame of a step: the record is cleared, then the timer phase runs. -/
theorem step_of_wait {s : State} (hw : s.wait = true) : step s = .next s.beginStep.finishStep := by
  rw [step, cycle, instructionPhase_of_wait (s := s.beginStep) hw]

end Sys2Proof.Machine

namespace Sys2Proof

open Machine

/-- Settles O7: the step is `beginStep` followed by `finishStep`, and both stay within the timer parts. -/
theorem waitingStepExecutesNothing : Obligations.WaitingStepExecutesNothing := by
  intro s hw
  have hframe : SameExcept timerParts s s.beginStep.finishStep :=
    (s.beginStep_sameExcept.mono (by simp [timerParts])).trans s.beginStep.finishStep_sameExcept
  exact ⟨s.beginStep.finishStep, step_of_wait hw, hframe, by simp [StepRecord.clear]⟩

end Sys2Proof
end

section
/-! PROOFS. The jump and the immediate skips (spec 41_control_transfer.md R101, R103, R104, R108): the group of a word
seen through its mask, the frame of a write of `PC`, and what the three instructions answer. -/

namespace Sys2Proof

/-! ## Groups without secondary decode (30_encoding.md R75, R76) -/

theorem fieldG_of_and_F000 {op w : Word} (h : op &&& 0xF000 = w) : fieldG op = fieldG w := by
  rw [← h, fieldG_and_F000]

theorem decode_of_group1 {op : Word} (h : fieldG op = 0x1) : decode op = .ok (.jp (fieldNNN op)) := by
  simp [decode, h]

theorem decode_of_group3 {op : Word} (h : fieldG op = 0x3) :
    decode op = .ok (.seImm (fieldX op) (fieldNN op)) := by
  simp [decode, h]

theorem decode_of_group4 {op : Word} (h : fieldG op = 0x4) :
    decode op = .ok (.sneImm (fieldX op) (fieldNN op)) := by
  simp [decode, h]

namespace Machine

/-! ## The frame of a write of `PC` -/

theorem State.setPc_sameExcept (s : State) (w : Word) : SameExcept [.pc] s (s.setPc w) := by
  intro p hp
  cases p with
  | pc => simp at hp
  | regs | index | stack | delayTimer | soundTimer | waitFlag | keys | display | memory | record | inputs | rndDraws
    | tickDraws => simp [Part.same]

/-- A skip writes `PC` at most, whether it is taken or not (R108). -/
theorem State.skipIf_sameExcept (s : State) (c : Bool) : SameExcept [.pc] s (s.skipIf c) :=
  s.setPc_sameExcept _

/-! ## What the instructions answer -/

@[simp] theorem zextAddr_toNat (nnn : Addr) : (zextAddr nnn).toNat = nnn.toNat :=
  BitVec.toNat_setWidth_of_le (by decide)

theorem exec_jp (nnn : Addr) (s : State) : exec (.jp nnn) s = .next (s.setPc (zextAddr nnn)) := rfl

theorem exec_seImm (x : Reg) (nn : Byte) (s : State) :
    exec (.seImm x nn) s = .next (s.skipIf (s.reg x == nn)) := rfl

theorem exec_sneImm (x : Reg) (nn : Byte) (s : State) :
    exec (.sneImm x nn) s = .next (s.skipIf (s.reg x != nn)) := rfl

end Machine

open Machine

/-- Settles O17: the mask leaves group 1, and `exec` is one write of `PC`, whose 12-bit operand loses nothing. -/
theorem jumpSetsPc : Obligations.JumpSetsPc := by
  refine ⟨fun op h => decode_of_group1 (fieldG_of_and_F000 h), fun nnn s => ?_⟩
  exact ⟨_, exec_jp nnn s, zextAddr_toNat nnn, s.setPc_sameExcept _⟩

/-- Settles O23: the masks leave groups 3 and 4, and `exec` is a skip on `V[x] = NN`, or on its negation. -/
theorem immediateSkipsTestTheRegister : Obligations.ImmediateSkipsTestTheRegister := by
  refine ⟨fun op h => decode_of_group3 (fieldG_of_and_F000 h), fun op h => decode_of_group4 (fieldG_of_and_F000 h),
    fun x nn s => ⟨?equal, ?differ⟩⟩
  case equal => exact ⟨_, exec_seImm x nn s, by simp, s.skipIf_sameExcept _⟩
  case differ => exact ⟨_, exec_sneImm x nn s, by simp, s.skipIf_sameExcept _⟩

end Sys2Proof
end

section
/-! PROOFS. The register loads and the immediate add (spec 42_alu.md R120, R121, R122): the two mask shapes that select
them, the frame of a write of one register, and what the three instructions answer. -/

namespace Sys2Proof

/-! ## Groups 6 and 7, and digit 0 of group 8 (30_encoding.md R76, R79) -/

theorem fieldG_of_and_F00F {op w : Word} (h : op &&& 0xF00F = w) : fieldG op = fieldG w := by
  rw [← h, fieldG_and_F00F]

theorem fieldN_of_and_F00F {op w : Word} (h : op &&& 0xF00F = w) : fieldN op = fieldN w := by
  rw [← h, fieldN_and_F00F]

theorem decode_of_group6 {op : Word} (h : fieldG op = 0x6) :
    decode op = .ok (.ldImm (fieldX op) (fieldNN op)) := by
  simp [decode, h]

theorem decode_of_group7 {op : Word} (h : fieldG op = 0x7) :
    decode op = .ok (.addImm (fieldX op) (fieldNN op)) := by
  simp [decode, h]

/-- In group 8 the digit `N` selects the operation. -/
theorem decode_of_group8 {op : Word} (h : fieldG op = 0x8) :
    decode op = decodeGroup8 (fieldX op) (fieldY op) (fieldN op) := by
  simp [decode, h]

theorem decodeGroup8_digit0 (x y : Reg) : decodeGroup8 x y 0x0 = .ok (.ldReg x y) := rfl

namespace Machine

/-! ## The frame of a write of one register -/

theorem State.setReg_sameExcept (s : State) (x : Reg) (b : Byte) : SameExcept [.regs] s (s.setReg x b) := by
  intro p hp
  cases p with
  | regs => simp at hp
  | index | pc | stack | delayTimer | soundTimer | waitFlag | keys | display | memory | record | inputs | rndDraws
    | tickDraws => simp [Part.same]

theorem State.setReg_writesOnly (s : State) (x : Reg) (b : Byte) : WritesOnly s (s.setReg x b) x b :=
  ⟨fun r => s.reg_setReg x r b, s.setReg_sameExcept x b⟩

/-! ## What the instructions answer -/

theorem exec_ldImm (x : Reg) (nn : Byte) (s : State) : exec (.ldImm x nn) s = .next (s.setReg x nn) := rfl

theorem exec_addImm (x : Reg) (nn : Byte) (s : State) :
    exec (.addImm x nn) s = .next (s.setReg x (s.reg x + nn)) := rfl

theorem exec_ldReg (x y : Reg) (s : State) : exec (.ldReg x y) s = .next (s.setReg x (s.reg y)) := rfl

/-- Addition of bytes is addition modulo 256 (R121, R133). -/
theorem ofNat_add_mod_256 (a b : Byte) : BitVec.ofNat 8 ((a.toNat + b.toNat) % 256) = a + b :=
  BitVec.eq_of_toNat_eq (by simp)

end Machine

open Machine

/-- Settles O26: the masks leave groups 6 and 7 and digit 0 of group 8, and `exec` is one write of `V[x]`, which touches
`V[F]` only when `x` is F. -/
theorem loadsAndAddImmediateWriteOneRegister : Obligations.LoadsAndAddImmediateWriteOneRegister := by
  refine ⟨fun op h => decode_of_group6 (fieldG_of_and_F000 h), fun op h => decode_of_group7 (fieldG_of_and_F000 h),
    fun op h => ?copyWord, fun x y nn s => ⟨?load, ?add, ?copy⟩⟩
  case copyWord =>
    have hN : fieldN op = 0x0 := fieldN_of_and_F00F h
    rw [decode_of_group8 (fieldG_of_and_F00F h), hN, decodeGroup8_digit0]
  case load => exact ⟨_, exec_ldImm x nn s, s.setReg_writesOnly x nn⟩
  case add =>
    rw [ofNat_add_mod_256]
    exact ⟨_, exec_addImm x nn s, s.setReg_writesOnly x _⟩
  case copy => exact ⟨_, exec_ldReg x y s, s.setReg_writesOnly x _⟩

end Sys2Proof
end

section
/-! PROOFS. The decoder and the encoder (spec 30_encoding.md R73 to R88): what each secondary decode answers and when it
rejects, the five ways a word is decoded, and that decoding and encoding are inverse to each other. -/

namespace Sys2Proof

/-- The sixteen values of a group or of a secondary digit. -/
theorem nibble_cases (n : Nibble) :
    n = 0x0 ∨ n = 0x1 ∨ n = 0x2 ∨ n = 0x3 ∨ n = 0x4 ∨ n = 0x5 ∨ n = 0x6 ∨ n = 0x7 ∨
    n = 0x8 ∨ n = 0x9 ∨ n = 0xA ∨ n = 0xB ∨ n = 0xC ∨ n = 0xD ∨ n = 0xE ∨ n = 0xF := by
  revert n
  decide

/-! ## The secondary decodes lose no bit (R77, R79, R80, R81) -/

theorem encode_of_decodeGroup0 {op : Word} {i : Instr} (h : decodeGroup0 op = .ok i) : encode i = op := by
  unfold decodeGroup0 at h
  split_ifs at h <;> cases h <;> subst op <;> rfl

theorem encode_of_decodeGroup8 {x y : Reg} {n : Nibble} {i : Instr} (h : decodeGroup8 x y n = .ok i) :
    encode i = wordXYN 0x8 x y n := by
  rcases nibble_cases n with
    rfl | rfl | rfl | rfl | rfl | rfl | rfl | rfl | rfl | rfl | rfl | rfl | rfl | rfl | rfl | rfl <;>
    cases h <;> rfl

theorem encode_of_decodeGroupE {x : Reg} {nn : Byte} {i : Instr} (h : decodeGroupE x nn = .ok i) :
    encode i = wordXNN 0xE x nn := by
  unfold decodeGroupE at h
  split_ifs at h <;> cases h <;> subst nn <;> rfl

theorem encode_of_decodeGroupF {x : Reg} {nn : Byte} {i : Instr} (h : decodeGroupF x nn = .ok i) :
    encode i = wordXNN 0xF x nn := by
  unfold decodeGroupF at h
  split_ifs at h <;> cases h <;> subst nn <;> rfl

/-! ## The secondary decodes reject the words of R82 -/

theorem decodeGroup0_error_iff (op : Word) : (∃ e, decodeGroup0 op = .error e) ↔ op ≠ 0x00E0 ∧ op ≠ 0x00EE := by
  unfold decodeGroup0
  split_ifs <;> simp_all

theorem decodeGroup8_error_iff (x y : Reg) (n : Nibble) :
    (∃ e, decodeGroup8 x y n = .error e) ↔ n ∈ [0x8, 0x9, 0xA, 0xB, 0xC, 0xD, 0xF] := by
  rcases nibble_cases n with
    rfl | rfl | rfl | rfl | rfl | rfl | rfl | rfl | rfl | rfl | rfl | rfl | rfl | rfl | rfl | rfl <;>
    simp [decodeGroup8]

theorem decodeGroupE_error_iff (x : Reg) (nn : Byte) :
    (∃ e, decodeGroupE x nn = .error e) ↔ nn ∉ [0x9E, 0xA1] := by
  unfold decodeGroupE
  split_ifs <;> simp_all

theorem decodeGroupF_error_iff (x : Reg) (nn : Byte) :
    (∃ e, decodeGroupF x nn = .error e) ↔ nn ∉ [0x07, 0x0A, 0x15, 0x18, 0x1E, 0x29, 0x33, 0x55, 0x65] := by
  unfold decodeGroupF
  split_ifs <;> simp_all

/-! ## Decoding by group (R75) -/

theorem decode_of_group0 {op : Word} (h : fieldG op = 0x0) : decode op = decodeGroup0 op := by
  simp [decode, h]

theorem decode_of_group2 {op : Word} (h : fieldG op = 0x2) : decode op = .ok (.call (fieldNNN op)) := by
  simp [decode, h]

theorem decode_of_group5 {op : Word} (h : fieldG op = 0x5) :
    decode op = .ok (.seReg (fieldX op) (fieldY op) (fieldN op)) := by
  simp [decode, h]

theorem decode_of_group9 {op : Word} (h : fieldG op = 0x9) :
    decode op = .ok (.sneReg (fieldX op) (fieldY op) (fieldN op)) := by
  simp [decode, h]

theorem decode_of_groupA {op : Word} (h : fieldG op = 0xA) : decode op = .ok (.ldI (fieldNNN op)) := by
  simp [decode, h]

theorem decode_of_groupB {op : Word} (h : fieldG op = 0xB) : decode op = .ok (.jpV0 (fieldNNN op)) := by
  simp [decode, h]

theorem decode_of_groupC {op : Word} (h : fieldG op = 0xC) : decode op = .ok (.rnd (fieldX op) (fieldNN op)) := by
  simp [decode, h]

theorem decode_of_groupD {op : Word} (h : fieldG op = 0xD) :
    decode op = .ok (.drw (fieldX op) (fieldY op) (fieldN op)) := by
  simp [decode, h]

theorem decode_of_groupE {op : Word} (h : fieldG op = 0xE) : decode op = decodeGroupE (fieldX op) (fieldNN op) := by
  simp [decode, h]

theorem decode_of_groupF {op : Word} (h : fieldG op = 0xF) : decode op = decodeGroupF (fieldX op) (fieldNN op) := by
  simp [decode, h]

/-! ## A word is put together from its group and its other fields -/

theorem wordNNN_of_fieldG {op : Word} {g : Nibble} (h : fieldG op = g) : wordNNN g (fieldNNN op) = op := by
  rw [← h, wordNNN_fields]

theorem wordXNN_of_fieldG {op : Word} {g : Nibble} (h : fieldG op = g) :
    wordXNN g (fieldX op) (fieldNN op) = op := by
  rw [← h, wordXNN_fields]

theorem wordXYN_of_fieldG {op : Word} {g : Nibble} (h : fieldG op = g) :
    wordXYN g (fieldX op) (fieldY op) (fieldN op) = op := by
  rw [← h, wordXYN_fields]

/-- Outside the groups 0, 8, E and F every word is the word of an instruction. -/
theorem decode_without_secondary {op : Word} (h : fieldG op ∉ ([0x0, 0x8, 0xE, 0xF] : List Nibble)) :
    ∃ i, decode op = .ok i ∧ encode i = op := by
  rcases nibble_cases (fieldG op) with
    hG | hG | hG | hG | hG | hG | hG | hG | hG | hG | hG | hG | hG | hG | hG | hG
  · simp [hG] at h
  · exact ⟨_, decode_of_group1 hG, wordNNN_of_fieldG hG⟩
  · exact ⟨_, decode_of_group2 hG, wordNNN_of_fieldG hG⟩
  · exact ⟨_, decode_of_group3 hG, wordXNN_of_fieldG hG⟩
  · exact ⟨_, decode_of_group4 hG, wordXNN_of_fieldG hG⟩
  · exact ⟨_, decode_of_group5 hG, wordXYN_of_fieldG hG⟩
  · exact ⟨_, decode_of_group6 hG, wordXNN_of_fieldG hG⟩
  · exact ⟨_, decode_of_group7 hG, wordXNN_of_fieldG hG⟩
  · simp [hG] at h
  · exact ⟨_, decode_of_group9 hG, wordXYN_of_fieldG hG⟩
  · exact ⟨_, decode_of_groupA hG, wordNNN_of_fieldG hG⟩
  · exact ⟨_, decode_of_groupB hG, wordNNN_of_fieldG hG⟩
  · exact ⟨_, decode_of_groupC hG, wordXNN_of_fieldG hG⟩
  · exact ⟨_, decode_of_groupD hG, wordXYN_of_fieldG hG⟩
  · simp [hG] at h
  · simp [hG] at h

/-- The five ways a word is decoded: by one of the four secondary decodes, or by its group alone. -/
theorem decode_cases (op : Word) :
    (fieldG op = 0x0 ∧ decode op = decodeGroup0 op) ∨
    (fieldG op = 0x8 ∧ decode op = decodeGroup8 (fieldX op) (fieldY op) (fieldN op)) ∨
    (fieldG op = 0xE ∧ decode op = decodeGroupE (fieldX op) (fieldNN op)) ∨
    (fieldG op = 0xF ∧ decode op = decodeGroupF (fieldX op) (fieldNN op)) ∨
    (fieldG op ∉ ([0x0, 0x8, 0xE, 0xF] : List Nibble) ∧ ∃ i, decode op = .ok i ∧ encode i = op) := by
  by_cases hG : fieldG op ∈ ([0x0, 0x8, 0xE, 0xF] : List Nibble)
  · simp only [List.mem_cons, List.not_mem_nil, or_false] at hG
    rcases hG with hG | hG | hG | hG
    · exact .inl ⟨hG, decode_of_group0 hG⟩
    · exact .inr (.inl ⟨hG, decode_of_group8 hG⟩)
    · exact .inr (.inr (.inl ⟨hG, decode_of_groupE hG⟩))
    · exact .inr (.inr (.inr (.inl ⟨hG, decode_of_groupF hG⟩)))
  · exact .inr (.inr (.inr (.inr ⟨hG, decode_without_secondary hG⟩)))

/-! ## Decoding and encoding are inverse to each other -/

theorem decode_encode (i : Instr) : decode (encode i) = .ok i := by
  cases i with
  | cls | ret => rfl
  | ldReg | orReg | andReg | xorReg | addReg | subReg | shr | subnReg | shl => simp [encode, decode, decodeGroup8]
  | skp | sknp => simp [encode, decode, decodeGroupE]
  | ldFromDt | ldKey | ldDt | ldSt | addI | ldF | ldB | stRegs | ldRegs => simp [encode, decode, decodeGroupF]
  | jp | call | seImm | sneImm | seReg | ldImm | addImm | sneReg | ldI | jpV0 | rnd | drw => simp [encode, decode]

theorem encode_of_decode {op : Word} {i : Instr} (h : decode op = .ok i) : encode i = op := by
  rcases decode_cases op with ⟨-, hd⟩ | ⟨hG, hd⟩ | ⟨hG, hd⟩ | ⟨hG, hd⟩ | ⟨-, j, hd, hj⟩ <;> rw [hd] at h
  · exact encode_of_decodeGroup0 h
  · rw [encode_of_decodeGroup8 h, wordXYN_of_fieldG hG]
  · rw [encode_of_decodeGroupE h, wordXNN_of_fieldG hG]
  · rw [encode_of_decodeGroupF h, wordXNN_of_fieldG hG]
  · cases h
    exact hj

theorem decode_eq_ok_iff {op : Word} {i : Instr} : decode op = .ok i ↔ op = encode i :=
  ⟨fun h => (encode_of_decode h).symm, fun h => h ▸ decode_encode i⟩

/-! ## The opcode map (R76) -/

theorem OpcodeRow.selects_iff {r : OpcodeRow} {op : Word} : r.selects op = true ↔ op &&& r.mask = r.value := by
  simp [OpcodeRow.selects]

open Laws.SelectsRow in
/-- The word of an instruction selects the instruction's row. -/
theorem row_selects_encode : ∀ i : Instr, i.row.selects (encode i) = true
  | .cls => cls | .ret => ret | .jp nnn => jp nnn | .call nnn => call nnn
  | .seImm x nn => seImm x nn | .sneImm x nn => sneImm x nn | .seReg x y n => seReg x y n
  | .ldImm x nn => ldImm x nn | .addImm x nn => addImm x nn | .ldReg x y => ldReg x y | .orReg x y => orReg x y
  | .andReg x y => andReg x y | .xorReg x y => xorReg x y | .addReg x y => addReg x y | .subReg x y => subReg x y
  | .shr x y => shr x y | .subnReg x y => subnReg x y | .shl x y => shl x y | .sneReg x y n => sneReg x y n
  | .ldI nnn => ldI nnn | .jpV0 nnn => jpV0 nnn | .rnd x nn => rnd x nn | .drw x y n => drw x y n
  | .skp x => skp x | .sknp x => sknp x | .ldFromDt x => ldFromDt x | .ldKey x => ldKey x | .ldDt x => ldDt x
  | .ldSt x => ldSt x | .addI x => addI x | .ldF x => ldF x | .ldB x => ldB x | .stRegs x => stRegs x
  | .ldRegs x => ldRegs x

theorem fieldG_of_and_F0FF {op w : Word} (h : op &&& 0xF0FF = w) : fieldG op = fieldG w := by
  rw [← h, fieldG_and_F0FF]

theorem fieldNN_of_and_F0FF {op w : Word} (h : op &&& 0xF0FF = w) : fieldNN op = fieldNN w := by
  rw [← h, fieldNN_and_F0FF]

theorem eq_of_and_FFFF {op w : Word} (h : op &&& 0xFFFF = w) : op = w := by
  rw [← h]
  exact (BitVec.and_allOnes (x := op)).symm

/-- A word of a group-8 row is decoded by the row's own digit. -/
theorem decode_of_and_F00F {op w : Word} (h : op &&& 0xF00F = w) (hw : fieldG w = 0x8) :
    decode op = decodeGroup8 (fieldX op) (fieldY op) (fieldN w) := by
  rw [decode_of_group8 ((fieldG_of_and_F00F h).trans hw), fieldN_of_and_F00F h]

/-- A word of a group-E row is decoded by the row's own function code. -/
theorem decode_of_and_F0FF_groupE {op w : Word} (h : op &&& 0xF0FF = w) (hw : fieldG w = 0xE) :
    decode op = decodeGroupE (fieldX op) (fieldNN w) := by
  rw [decode_of_groupE ((fieldG_of_and_F0FF h).trans hw), fieldNN_of_and_F0FF h]

/-- A word of a group-F row is decoded by the row's own function code. -/
theorem decode_of_and_F0FF_groupF {op w : Word} (h : op &&& 0xF0FF = w) (hw : fieldG w = 0xF) :
    decode op = decodeGroupF (fieldX op) (fieldNN w) := by
  rw [decode_of_groupF ((fieldG_of_and_F0FF h).trans hw), fieldNN_of_and_F0FF h]

/-- A word that selects a row decodes to an instruction of that row. -/
theorem decode_of_row_selects {op : Word} {i : Instr} (h : i.row.selects op = true) :
    ∃ j, decode op = .ok j ∧ j.row = i.row := by
  rw [OpcodeRow.selects_iff] at h
  cases i <;> dsimp only [Instr.row] at h ⊢
  case cls | ret =>
    obtain rfl := eq_of_and_FFFF h
    exact ⟨_, rfl, rfl⟩
  case jp => exact ⟨_, decode_of_group1 (fieldG_of_and_F000 h), rfl⟩
  case call => exact ⟨_, decode_of_group2 (fieldG_of_and_F000 h), rfl⟩
  case seImm => exact ⟨_, decode_of_group3 (fieldG_of_and_F000 h), rfl⟩
  case sneImm => exact ⟨_, decode_of_group4 (fieldG_of_and_F000 h), rfl⟩
  case seReg => exact ⟨_, decode_of_group5 (fieldG_of_and_F000 h), rfl⟩
  case ldImm => exact ⟨_, decode_of_group6 (fieldG_of_and_F000 h), rfl⟩
  case addImm => exact ⟨_, decode_of_group7 (fieldG_of_and_F000 h), rfl⟩
  case sneReg => exact ⟨_, decode_of_group9 (fieldG_of_and_F000 h), rfl⟩
  case ldI => exact ⟨_, decode_of_groupA (fieldG_of_and_F000 h), rfl⟩
  case jpV0 => exact ⟨_, decode_of_groupB (fieldG_of_and_F000 h), rfl⟩
  case rnd => exact ⟨_, decode_of_groupC (fieldG_of_and_F000 h), rfl⟩
  case drw => exact ⟨_, decode_of_groupD (fieldG_of_and_F000 h), rfl⟩
  case ldReg | orReg | andReg | xorReg | addReg | subReg | shr | subnReg | shl =>
    exact ⟨_, decode_of_and_F00F h rfl, rfl⟩
  case skp | sknp => exact ⟨_, decode_of_and_F0FF_groupE h rfl, rfl⟩
  case ldFromDt | ldKey | ldDt | ldSt | addI | ldF | ldB | stRegs | ldRegs =>
    exact ⟨_, decode_of_and_F0FF_groupF h rfl, rfl⟩

/-! ## The obligations -/

/-- Settles O1: `decode` undoes `encode`, and the two bytes of a word put it together again. -/
theorem decodeAfterEncodeGivesTheInstruction : Obligations.DecodeAfterEncodeGivesTheInstruction := by
  refine ⟨decode_encode, fun i rest => ?_⟩
  simp [encodeBytes, decodeBytes, decode_encode]

/-- Settles O2: each secondary decode keeps every field of the word. -/
theorem encodeAfterDecodeGivesTheWord : Obligations.EncodeAfterDecodeGivesTheWord :=
  fun _ _ h => encode_of_decode h

/-- Settles O3: a decoded word is the word of its instruction, which selects that instruction's row; a word that selects
a row decodes into it; and decoding is a function, so two rows that select one word are the same. -/
theorem decodeFollowsTheOpcodeMap : Obligations.DecodeFollowsTheOpcodeMap := by
  refine ⟨fun op i h => ?_, fun op i h => decode_of_row_selects h, fun op i j hi hj => ?_⟩
  · rw [← encode_of_decode h]
    exact row_selects_encode i
  · obtain ⟨a, ha, hai⟩ := decode_of_row_selects hi
    obtain ⟨b, hb, hbj⟩ := decode_of_row_selects hj
    have hab : a = b := Except.ok.inj (ha.symm.trans hb)
    rw [← hai, ← hbj, hab]

/-- Settles O4: only the four secondary decodes reject, each the words the table lists for its group. -/
theorem unknownWordsAreTheOnesListed : Obligations.UnknownWordsAreTheOnesListed := by
  intro op
  rcases decode_cases op with ⟨hG, hd⟩ | ⟨hG, hd⟩ | ⟨hG, hd⟩ | ⟨hG, hd⟩ | ⟨hG, i, hd, -⟩ <;> rw [hd]
  · simp [hG, decodeGroup0_error_iff]
  · simp [hG, decodeGroup8_error_iff]
  · simp [hG, decodeGroupE_error_iff]
  · simp [hG, decodeGroupF_error_iff]
  · refine iff_of_false (by simp) ?_
    rintro (⟨h, -⟩ | ⟨h, -⟩ | ⟨h, -⟩ | ⟨h, -⟩) <;> simp [h] at hG

/-- Settles O5. -/
theorem wordsOfTheSpecDecode : Obligations.WordsOfTheSpecDecode := by
  unfold Obligations.WordsOfTheSpecDecode
  decide

end Sys2Proof
end

section
/-! PROOFS. Frames (spec 10_state.md R20; 00_scope.md R13): a frame by its fourteen pieces of state, and the frame of every
named operation of the state. -/

namespace Sys2Proof.Machine

variable (s : State)

/-- A frame spelled out, piece by piece: the form in which the laws of the state prove it. -/
theorem sameExcept_iff {w : List Part} {s t : State} :
    SameExcept w s t ↔
      (.regs ∉ w → ∀ r, t.reg r = s.reg r) ∧ (.index ∉ w → t.i = s.i) ∧ (.pc ∉ w → t.pc = s.pc) ∧
      (.stack ∉ w → t.stack = s.stack) ∧ (.delayTimer ∉ w → t.dt = s.dt) ∧ (.soundTimer ∉ w → t.st = s.st) ∧
      (.waitFlag ∉ w → t.wait = s.wait) ∧ (.keys ∉ w → ∀ k, t.key k = s.key k) ∧
      (.display ∉ w → ∀ idx, t.cell idx = s.cell idx) ∧ (.memory ∉ w → ∀ a, t.peek a = s.peek a) ∧
      (.record ∉ w → t.out = s.out) ∧ (.inputs ∉ w → t.inputs = s.inputs) ∧
      (.rndDraws ∉ w → t.rndDraws = s.rndDraws) ∧ (.tickDraws ∉ w → t.tickDraws = s.tickDraws) := by
  constructor
  · intro h
    exact ⟨h .regs, h .index, h .pc, h .stack, h .delayTimer, h .soundTimer, h .waitFlag, h .keys, h .display, h .memory,
      h .record, h .inputs, h .rndDraws, h .tickDraws⟩
  · rintro ⟨hv, hi, hpc, hstack, hdt, hst, hwait, hkeys, hfb, hmem, hout, hinputs, hrnd, htick⟩ p
    cases p with
    | regs => exact hv
    | index => exact hi
    | pc => exact hpc
    | stack => exact hstack
    | delayTimer => exact hdt
    | soundTimer => exact hst
    | waitFlag => exact hwait
    | keys => exact hkeys
    | display => exact hfb
    | memory => exact hmem
    | record => exact hout
    | inputs => exact hinputs
    | rndDraws => exact hrnd
    | tickDraws => exact htick

theorem SameExcept.refl (w : List Part) : SameExcept w s s := by
  simp [sameExcept_iff]

/-! ## The frame of each operation -/

theorem State.setI_sameExcept (w : Word) : SameExcept [.index] s (s.setI w) := by
  simp [sameExcept_iff]

theorem State.setDt_sameExcept (b : Byte) : SameExcept [.delayTimer] s (s.setDt b) := by
  simp [sameExcept_iff]

theorem State.setSt_sameExcept (b : Byte) : SameExcept [.soundTimer] s (s.setSt b) := by
  simp [sameExcept_iff]

theorem State.setFb_sameExcept (fb : Framebuffer) : SameExcept [.display] s (s.setFb fb) := by
  simp [sameExcept_iff]

theorem State.setMem_sameExcept (m : Memory) : SameExcept [.memory] s (s.setMem m) := by
  simp [sameExcept_iff]

theorem State.setKey_sameExcept (k : Key) (d : Bool) : SameExcept [.keys] s (s.setKey k d) := by
  simp [sameExcept_iff]

theorem State.setResult_sameExcept (x : Reg) (b : Byte) (f : Bool) : SameExcept [.regs] s (s.setResult x b f) := by
  simp [sameExcept_iff]

theorem State.supply_sameExcept (tick : Bool) (rnd : Byte) : SameExcept [.inputs] s (s.supply tick rnd) := by
  simp [sameExcept_iff]

/-- The frame of a `CALL` that finds room. -/
theorem State.push_setPc_sameExcept (w w' : Word) : SameExcept [.pc, .stack] s ((s.push w).setPc w') := by
  simp [sameExcept_iff]

/-- The frame of a `RET` that finds an entry. -/
theorem State.dropTop_setPc_sameExcept (w : Word) : SameExcept [.pc, .stack] s (s.dropTop.setPc w) := by
  simp [sameExcept_iff]

theorem State.raiseFault_sameExcept (f : Fault) : SameExcept [.pc, .record] s (s.raiseFault f) := by
  simp [sameExcept_iff]

theorem State.noteAccess_sameExcept (a n : Nat) : SameExcept [.record] s (s.noteAccess a n) := by
  simp [sameExcept_iff]

theorem State.storeBytes_sameExcept (a : Nat) (bs : List Byte) :
    SameExcept [.memory, .record] s (s.storeBytes a bs) := by
  simp [sameExcept_iff]

theorem State.dispatched_sameExcept : SameExcept [.pc, .record] s s.dispatched := by
  simp [sameExcept_iff]

/-- The frame of a `RND`. -/
theorem State.setReg_drawRnd_sameExcept (x : Reg) (b : Byte) : SameExcept [.regs, .rndDraws] s (s.setReg x b).drawRnd := by
  simp [sameExcept_iff]

/-- The frame of a wait entered with `PC` moved. -/
theorem State.setWait_setPc_sameExcept (d : Bool) (w : Word) :
    SameExcept [.pc, .waitFlag] s ((s.setWait d).setPc w) := by
  simp [sameExcept_iff]

theorem State.timerPhase_sameExcept (tick : Bool) :
    SameExcept [.delayTimer, .soundTimer, .record] s (s.timerPhase tick) := by
  simp [sameExcept_iff]

theorem loadRegsFrom_sameExcept (src t : State) (a n : Nat) : SameExcept [.regs] t (loadRegsFrom src a n t) := by
  induction n with
  | zero => exact SameExcept.refl t _
  | succ n ih => exact ih.trans (State.setReg_sameExcept _ _ _)

end Sys2Proof.Machine
end

section
/-! PROOFS. What each instruction answers (spec 40_step_cycle.md R95, R97): `exec` by instruction, and the two ways each of
`CALL` and `RET` can go. -/

namespace Sys2Proof.Machine

variable (x y : Reg) (n : Nibble) (nn : Byte) (nnn : Addr) (s : State)

theorem exec_cls : exec .cls s = .next (s.setFb fbClear) := rfl

theorem exec_ret_of_empty {s : State} (h : s.top = none) : exec .ret s = .next (s.raiseFault .stackUnderflow) := by
  simp [exec, execRet, h]

theorem exec_ret_of_top {s : State} {w : Word} (h : s.top = some w) : exec .ret s = .next (s.dropTop.setPc w) := by
  simp [exec, execRet, h]

theorem exec_call_of_full {s : State} (h : Config.stackDepth ≤ s.sp) :
    exec (.call nnn) s = .next (s.raiseFault .stackOverflow) :=
  if_pos h

theorem exec_call_of_room {s : State} (h : s.sp < Config.stackDepth) :
    exec (.call nnn) s = .next ((s.push s.pc).setPc (zextAddr nnn)) :=
  if_neg (Nat.not_le.mpr h)

theorem exec_seReg : exec (.seReg x y n) s = .next (s.skipIf (s.reg x == s.reg y)) := rfl
theorem exec_orReg : exec (.orReg x y) s = .next (s.setReg x (s.reg x ||| s.reg y)) := rfl
theorem exec_andReg : exec (.andReg x y) s = .next (s.setReg x (s.reg x &&& s.reg y)) := rfl
theorem exec_xorReg : exec (.xorReg x y) s = .next (s.setReg x (s.reg x ^^^ s.reg y)) := rfl
theorem exec_addReg :
    exec (.addReg x y) s = .next (s.setResult x (s.reg x + s.reg y) (addFlag (s.reg x) (s.reg y))) := rfl
theorem exec_subReg :
    exec (.subReg x y) s = .next (s.setResult x (s.reg x - s.reg y) (subFlag (s.reg x) (s.reg y))) := rfl
theorem exec_shr : exec (.shr x y) s = .next (s.setResult x (s.reg x >>> 1) (shrFlag (s.reg x))) := rfl
theorem exec_subnReg :
    exec (.subnReg x y) s = .next (s.setResult x (s.reg y - s.reg x) (subFlag (s.reg y) (s.reg x))) := rfl
theorem exec_shl : exec (.shl x y) s = .next (s.setResult x (s.reg x <<< 1) (shlFlag (s.reg x))) := rfl
theorem exec_sneReg : exec (.sneReg x y n) s = .next (s.skipIf (s.reg x != s.reg y)) := rfl
theorem exec_ldI : exec (.ldI nnn) s = .next (s.setI (zextAddr nnn)) := rfl
theorem exec_jpV0 : exec (.jpV0 nnn) s = .next (s.setPc (zextByte (s.reg 0) + zextAddr nnn)) := rfl
theorem exec_rnd : exec (.rnd x nn) s = .next (s.setReg x (s.rndValue &&& nn)).drawRnd := rfl

/-- The drawing of `DRW Vx, Vy, N`: the sprite of `n` rows at `I`, on the display as it stands (R151). -/
def State.spriteDrawing (s : State) (x y : Reg) (n : Nibble) : Drawing :=
  s.drawRows (s.reg x).toNat (s.reg y).toNat n.toNat ⟨s.fb, false⟩

theorem exec_drw :
    exec (.drw x y n) s = .next
      (((s.noteAccess (s.ea 0) n.toNat).setFb (s.spriteDrawing x y n).fb).setFlag (s.spriteDrawing x y n).collision) := rfl

theorem exec_skp : exec (.skp x) s = .next (s.skipIf (s.key (s.keyOf x))) := rfl
theorem exec_sknp : exec (.sknp x) s = .next (s.skipIf (!s.key (s.keyOf x))) := rfl
theorem exec_ldFromDt : exec (.ldFromDt x) s = .next (s.setReg x s.dt) := rfl
theorem exec_ldKey : exec (.ldKey x) s = .next ((s.setWait true).setPc (s.pc - 2)) := rfl
theorem exec_ldDt : exec (.ldDt x) s = .next (s.setDt (s.reg x)) := rfl
theorem exec_ldSt : exec (.ldSt x) s = .next (s.setSt (s.reg x)) := rfl
theorem exec_addI : exec (.addI x) s = .next (s.setI (s.i + zextByte (s.reg x))) := rfl
theorem exec_ldF : exec (.ldF x) s = .next (s.setI (zextByte (s.reg x) * 5)) := rfl
theorem exec_ldB : exec (.ldB x) s = .next (s.storeBytes (s.ea 0) (bcdDigits (s.reg x))) := rfl
theorem exec_stRegs : exec (.stRegs x) s = .next (s.storeBytes (s.ea 0) (s.regRange x)) := rfl
theorem exec_ldRegs :
    exec (.ldRegs x) s =
      .next (loadRegsFrom s (s.ea 0) (x.toNat + 1) (s.noteAccess (s.ea 0) (x.toNat + 1))) := rfl

variable {s : State} {t : State}

/-- What a `RET` can do: raise the underflow, or pop the newest entry (R100). -/
theorem exec_ret_cases (h : exec .ret s = .next t) :
    (s.top = none ∧ t = s.raiseFault .stackUnderflow) ∨ ∃ w, s.top = some w ∧ t = s.dropTop.setPc w := by
  cases hs : s.top with
  | none =>
    rw [exec_ret_of_empty hs] at h
    cases h
    exact .inl ⟨rfl, rfl⟩
  | some w =>
    rw [exec_ret_of_top hs] at h
    cases h
    exact .inr ⟨w, rfl, rfl⟩

/-- What a `CALL` can do: raise the overflow, or push the return address and jump (R102). -/
theorem exec_call_cases {nnn : Addr} (h : exec (.call nnn) s = .next t) :
    (Config.stackDepth ≤ s.sp ∧ t = s.raiseFault .stackOverflow) ∨
    (s.sp < Config.stackDepth ∧ t = (s.push s.pc).setPc (zextAddr nnn)) := by
  rcases Nat.lt_or_ge s.sp Config.stackDepth with hs | hs
  · rw [exec_call_of_room nnn hs] at h
    cases h
    exact .inr ⟨hs, rfl⟩
  · rw [exec_call_of_full nnn hs] at h
    cases h
    exact .inl ⟨hs, rfl⟩

/-! ## What every instruction has in common -/

/-- No instruction ends in a fault or a refusal of the host's interface (R97, R98). -/
theorem exec_next (i : Instr) (s : State) : ∃ t, exec i s = .next t := by
  cases i with
  | ret =>
    cases hs : s.top with
    | none => exact ⟨_, exec_ret_of_empty hs⟩
    | some w => exact ⟨_, exec_ret_of_top hs⟩
  | call nnn =>
    rcases Nat.lt_or_ge s.sp Config.stackDepth with hs | hs
    · exact ⟨_, exec_call_of_room nnn hs⟩
    · exact ⟨_, exec_call_of_full nnn hs⟩
  | _ => exact ⟨_, rfl⟩

/-- The frame of every instruction (R20, R25, R61; D22). -/
theorem exec_sameExcept {i : Instr} (h : exec i s = .next t) : SameExcept i.writes s t := by
  cases i with
  | cls => cases h; exact s.setFb_sameExcept _
  | ret =>
    rcases exec_ret_cases h with ⟨-, rfl⟩ | ⟨w, -, rfl⟩
    · exact (s.raiseFault_sameExcept _).mono (by simp [Instr.writes])
    · exact (s.dropTop_setPc_sameExcept w).mono (by simp [Instr.writes])
  | call nnn =>
    rcases exec_call_cases h with ⟨-, rfl⟩ | ⟨-, rfl⟩
    · exact (s.raiseFault_sameExcept _).mono (by simp [Instr.writes])
    · exact (s.push_setPc_sameExcept _ _).mono (by simp [Instr.writes])
  | jp | jpV0 => cases h; exact s.setPc_sameExcept _
  | seImm | sneImm | seReg | sneReg | skp | sknp => cases h; exact s.skipIf_sameExcept _
  | ldImm | addImm | ldReg | orReg | andReg | xorReg | ldFromDt => cases h; exact s.setReg_sameExcept _ _
  | addReg | subReg | shr | subnReg | shl => cases h; exact s.setResult_sameExcept _ _ _
  | ldI | addI | ldF => cases h; exact s.setI_sameExcept _
  | rnd => cases h; exact s.setReg_drawRnd_sameExcept _ _
  | drw => cases h; simp [sameExcept_iff, Instr.writes]
  | ldKey => cases h; exact s.setWait_setPc_sameExcept _ _
  | ldDt => cases h; exact s.setDt_sameExcept _
  | ldSt => cases h; exact s.setSt_sameExcept _
  | ldB | stRegs => cases h; exact s.storeBytes_sameExcept _ _
  | ldRegs =>
    cases h
    exact ((s.noteAccess_sameExcept _ _).mono (by simp [Instr.writes])).trans
      ((loadRegsFrom_sameExcept _ _ _ _).mono (by simp [Instr.writes]))

/-- Every instruction stores its `storeLength` bytes from the effective address `I` up, most of them none (R61). -/
theorem exec_mem {i : Instr} (h : exec i s = .next t) :
    ∃ bs : List Byte, bs.length = i.storeLength ∧ t.mem = memWriteAll s.mem (s.ea 0) bs := by
  cases i with
  | ldB x => cases h; exact ⟨bcdDigits (s.reg x), rfl, rfl⟩
  | stRegs x => cases h; exact ⟨s.regRange x, by simp [State.regRange, Instr.storeLength], rfl⟩
  | ret => rcases exec_ret_cases h with ⟨-, rfl⟩ | ⟨w, -, rfl⟩ <;> exact ⟨[], rfl, rfl⟩
  | call => rcases exec_call_cases h with ⟨-, rfl⟩ | ⟨-, rfl⟩ <;> exact ⟨[], rfl, rfl⟩
  | ldRegs x => cases h; rw [loadRegsFrom_eq]; exact ⟨[], rfl, rfl⟩
  | _ => cases h; exact ⟨[], rfl, rfl⟩

end Sys2Proof.Machine
end

section
/-! PROOFS. What a step does, from the state before it (spec 40_step_cycle.md R90 to R98): the step in each of its three
cases, that it always answers, and what it leaves of the state. -/

namespace Sys2Proof.Machine

variable {s t u : State} {i : Instr}

/-! ## The three cases of a step -/

theorem State.wait_or_unknown_or_executes (s : State) :
    s.wait = true ∨ (s.wait = false ∧ ∃ e, decode s.fetchWord = .error e) ∨ ∃ i, s.executes i := by
  cases hw : s.wait with
  | true => exact .inl rfl
  | false =>
    cases hd : decode s.fetchWord with
    | error e => exact .inr (.inl ⟨rfl, e, rfl⟩)
    | ok i => exact .inr (.inr ⟨i, hw, hd⟩)

/-- A step on an unknown word advances `PC` and notes it (R96). -/
theorem step_of_unknown {e : DecodeError} (hw : s.wait = false) (he : decode s.fetchWord = .error e) :
    step s = .next s.dispatched.warnUnknown.finishStep := by
  have hp : instructionPhase s.beginStep = .next s.dispatched.warnUnknown := by
    rw [instructionPhase, if_neg (by simp [hw]), show s.beginStep.fetchWord = s.fetchWord from rfl, he]
    rfl
  rw [step, cycle, hp]

/-- A step that executes `i` is `exec i` in the dispatched state, then the timer phase (R95). -/
theorem step_of_executes (hi : s.executes i) (ht : exec i s.dispatched = .next t) : step s = .next t.finishStep := by
  obtain ⟨hw, hd⟩ := hi
  have hp : instructionPhase s.beginStep = .next t := by
    rw [instructionPhase, if_neg (by simp [hw]), show s.beginStep.fetchWord = s.fetchWord from rfl, hd]
    exact ht
  rw [step, cycle, hp]

/-- Every step answers a next state (R98). -/
theorem step_answers (s : State) : ∃ u, step s = .next u := by
  rcases s.wait_or_unknown_or_executes with hw | ⟨hw, e, he⟩ | ⟨i, hi⟩
  · exact ⟨_, step_of_wait hw⟩
  · exact ⟨_, step_of_unknown hw he⟩
  · obtain ⟨t, ht⟩ := exec_next i s.dispatched
    exact ⟨_, step_of_executes hi ht⟩

/-! ## What the next step fetches and executes -/

theorem State.fetchWord_congr (hpc : t.pc = s.pc) (hmem : ∀ a, t.peek a = s.peek a) : t.fetchWord = s.fetchWord := by
  simp only [State.fetchWord, State.peekWord, hpc, hmem]

/-- A state that differs in its timer parts only executes the same instruction next. -/
theorem State.executes_of_sameExcept_timerParts (hsu : SameExcept timerParts s u) (hi : s.executes i) :
    u.executes i := by
  obtain ⟨hw, hd⟩ := hi
  have hfetch : u.fetchWord = s.fetchWord :=
    State.fetchWord_congr (hsu .pc (by simp [timerParts])) (hsu .memory (by simp [timerParts]))
  exact ⟨(hsu .waitFlag (by simp [timerParts])).trans hw, hfetch ▸ hd⟩

/-- The diagnostic of an access of `n + 1` bytes looks at the last address (R55). -/
theorem oobIn_succ (a n : Nat) : oobIn a (n + 1) = decide (4095 < a + n) := by
  rw [Bool.eq_iff_iff, oobIn_iff, memTop_eq]
  simp

/-! ## What no instruction touches -/

theorem delayTimer_mem_writes : Part.delayTimer ∈ i.writes ↔ ∃ x, i = .ldDt x := by
  cases i <;> simp [Instr.writes]

theorem soundTimer_mem_writes : Part.soundTimer ∈ i.writes ↔ ∃ x, i = .ldSt x := by
  cases i <;> simp [Instr.writes]

theorem inputs_notMem_writes : Part.inputs ∉ i.writes := by
  cases i <;> simp [Instr.writes]

theorem tickDraws_notMem_writes : Part.tickDraws ∉ i.writes := by
  cases i <;> simp [Instr.writes]

/-- No instruction changes the tick of its step (R183). -/
theorem exec_tickValue (h : exec i s = .next t) : t.tickValue = s.tickValue := by
  have hinputs : t.inputs = s.inputs := exec_sameExcept h .inputs inputs_notMem_writes
  have hdraws : t.tickDraws = s.tickDraws := exec_sameExcept h .tickDraws tickDraws_notMem_writes
  simp only [State.tickValue, hinputs, hdraws]

/-! ## A timer over a step (R183, R186) -/

/-- Over a step that does not load it, the delay timer is counted down once. -/
theorem step_dt (h : step s = .next u) (hl : ∀ x, ¬ s.executes (.ldDt x)) : u.dt = countDown s.tickValue s.dt := by
  rcases step_cases h with ⟨-, rfl⟩ | ⟨-, -, rfl⟩ | ⟨i, t, hi, ht, rfl⟩
  · rfl
  · rfl
  · have hdt : t.dt = s.dt :=
      exec_sameExcept ht .delayTimer fun hm => (delayTimer_mem_writes.mp hm).elim fun x hx => hl x (hx ▸ hi)
    rw [State.finishStep_dt, hdt, exec_tickValue ht]
    rfl

/-- Over a step that does not load it, the sound timer is counted down once. -/
theorem step_st (h : step s = .next u) (hl : ∀ x, ¬ s.executes (.ldSt x)) : u.st = countDown s.tickValue s.st := by
  rcases step_cases h with ⟨-, rfl⟩ | ⟨-, -, rfl⟩ | ⟨i, t, hi, ht, rfl⟩
  · rfl
  · rfl
  · have hst : t.st = s.st :=
      exec_sameExcept ht .soundTimer fun hm => (soundTimer_mem_writes.mp hm).elim fun x hx => hl x (hx ▸ hi)
    rw [State.finishStep_st, hst, exec_tickValue ht]
    rfl

theorem countDown_toNat_eq_sub (tick : Bool) (c : Byte) :
    (countDown tick c).toNat = c.toNat - (if tick then 1 else 0) := by
  rw [countDown_toNat]
  cases tick <;> rfl

/-- A quantity that loses 1 at each of `n` steps has lost `n`, down to 0. -/
theorem eq_sub_of_forall_lt {f : Nat → Nat} {n : Nat} (h : ∀ k < n, f (k + 1) = f k - 1) : f n = f 0 - n := by
  induction n with
  | zero => rfl
  | succ n ih => rw [h n (Nat.lt_succ_self n), ih fun k hk => h k (Nat.lt_succ_of_lt hk), Nat.sub_sub]

/-! ## The invariant: canonical memory, and at most 16 entries on the stack -/

theorem exec_sp_le (h : exec i s = .next t) (hs : s.sp ≤ Config.stackDepth) : t.sp ≤ Config.stackDepth := by
  cases i with
  | ret =>
    rcases exec_ret_cases h with ⟨-, rfl⟩ | ⟨w, -, rfl⟩
    · exact hs
    · have hpop : s.stack.dropLast.length ≤ s.sp := by simp [State.sp]
      exact hpop.trans hs
  | call =>
    rcases exec_call_cases h with ⟨-, rfl⟩ | ⟨hroom, rfl⟩
    · exact hs
    · simpa [State.sp] using hroom
  | _ =>
    have hstack : t.stack = s.stack := exec_sameExcept h .stack (by simp [Instr.writes])
    simpa only [State.sp, hstack] using hs

theorem exec_inv (h : exec i s = .next t) (hs : s.Inv) : t.Inv := by
  obtain ⟨hmem, hsp⟩ := hs
  obtain ⟨bs, -, ht⟩ := exec_mem h
  exact ⟨ht ▸ memWriteAll_wf hmem _ bs, exec_sp_le h hsp⟩

/-- What a step does around its instruction touches neither memory nor the stack. -/
theorem step_inv (h : step s = .next u) (hs : s.Inv) : u.Inv := by
  rcases step_cases h with ⟨-, rfl⟩ | ⟨-, -, rfl⟩ | ⟨i, t, -, ht, rfl⟩
  · exact hs
  · exact hs
  · have htinv : t.Inv := exec_inv (s := s.dispatched) ht hs
    exact htinv

theorem State.reset_inv : State.reset.Inv := ⟨rfl, Nat.zero_le _⟩

theorem State.load_inv (hs : s.Inv) (bytes : List Byte) (offset : Nat) : (s.load bytes offset).Inv := by
  unfold State.load
  split
  · exact ⟨memWriteAll_wf hs.1 offset bytes, hs.2⟩
  · exact hs

theorem State.keyDown_inv (hs : s.Inv) (k : Key) : (s.keyDown k).Inv := by
  unfold State.keyDown
  split <;> exact hs

theorem transact_step {tick : Bool} {rnd : Byte} (h : step (s.supply tick rnd) = .next u) :
    transact (.step tick rnd) s = .next (u, .record u.out) := by
  simp only [transact, h]

theorem transact_inv {tr : Transaction} {r : Response} (h : transact tr s = .next (u, r)) (hs : s.Inv) : u.Inv := by
  cases tr with
  | reset => cases h; exact State.reset_inv
  | load bytes offset => cases h; exact State.load_inv hs bytes _
  | step tick rnd =>
    obtain ⟨v, hv⟩ := step_answers (s.supply tick rnd)
    rw [transact_step hv] at h
    cases h
    exact step_inv hv hs
  | keyDown k => cases h; exact State.keyDown_inv hs k
  | keyUp k => cases h; exact hs
  | readFramebuffer => cases h; exact hs

end Sys2Proof.Machine

namespace Sys2Proof

open Machine

/-- Settles O54: `exec` writes memory by bounds-checked byte writes only, and pushes only when there is room. -/
theorem stepKeepsTheInvariant : Obligations.StepKeepsTheInvariant :=
  fun _ _ hs h => step_inv h hs

/-- Settles O55: transaction by transaction; `Reset` starts anew, `Load` is a block write, and `Step` is a step. -/
theorem transactionsKeepTheInvariant : Obligations.TransactionsKeepTheInvariant :=
  fun _ _ _ _ hs h => transact_inv h hs

/-- Settles O53. -/
theorem resetMeetsTheInvariant : Obligations.ResetMeetsTheInvariant := State.reset_inv

/-- Settles O56: instruction by instruction, from the frames of the operations. -/
theorem instructionsChangeOnlyWhatTheyMay : Obligations.InstructionsChangeOnlyWhatTheyMay :=
  fun _ _ _ h => exec_sameExcept h

/-- Settles O58: whatever an instruction stores is one block from `I` up, and a block write leaves the rest. -/
theorem unstoredBytesAreUnchanged : Obligations.UnstoredBytesAreUnchanged := by
  intro i s t a h ha
  obtain ⟨bs, hlen, hmem⟩ := exec_mem h
  rw [State.peek, State.peek, hmem, memRead_memWriteAll_outside _ _ _ (by rwa [hlen])]

/-- Settles O9. -/
theorem everyStepAnswersANextState : Obligations.EveryStepAnswersANextState := step_answers

/-- Settles O6: a step that executes `i`, and the fields of the state it is dispatched in. -/
theorem stepRunsTheDecodedInstruction : Obligations.StepRunsTheDecodedInstruction := by
  intro s i hi
  obtain ⟨t, ht⟩ := exec_next i s.dispatched
  refine ⟨?_, rfl, ?_, s.dispatched_sameExcept⟩
  · rw [ht]
    exact step_of_executes hi ht
  · rw [State.dispatched_out, oobIn_succ _ 1]
    rfl

/-- Settles O8: the step notes the word between the dispatch and the timer phase, and does nothing else. -/
theorem unknownWordIsANoOp : Obligations.UnknownWordIsANoOp := by
  intro s e hw he
  refine ⟨_, step_of_unknown hw he, rfl, rfl, rfl, oobIn_succ _ 1, rfl, rfl, ?_⟩
  simp [sameExcept_iff, timerParts]

/-- Settles O14. -/
theorem timerPhaseCountsDown : Obligations.TimerPhaseCountsDown := by
  intro s tick
  refine ⟨countDown_toNat_eq_sub tick s.dt, countDown_toNat_eq_sub tick s.st, ?_, rfl, rfl, rfl,
    s.timerPhase_sameExcept tick⟩
  simp [and_comm]

/-- Settles O15: a timer that the step does not load is counted down once, and counting down never raises it. -/
theorem timersRiseOnlyByTheirLoads : Obligations.TimersRiseOnlyByTheirLoads := by
  intro s u h
  constructor <;> intro hl
  · rw [step_dt h hl, countDown_toNat_eq_sub]
    exact Nat.sub_le _ _
  · rw [step_st h hl, countDown_toNat_eq_sub]
    exact Nat.sub_le _ _

/-- Settles O60: one step counts a timer down once; `n` steps by induction. -/
theorem tickedTimersLoseOneAStep : Obligations.TickedTimersLoseOneAStep := by
  refine ⟨fun s u h => ⟨fun hl => ?_, fun hl => ?_⟩, fun run rnd n h => ⟨fun hl => ?_, fun hl => ?_⟩⟩
  · rw [step_dt h hl, countDown_toNat_eq_sub]
  · rw [step_st h hl, countDown_toNat_eq_sub]
  · refine eq_sub_of_forall_lt (f := fun k => (run k).dt.toNat) fun k hk => ?_
    simp only [step_dt (h k hk) (hl k hk), countDown_toNat_eq_sub]
    rfl
  · refine eq_sub_of_forall_lt (f := fun k => (run k).st.toNat) fun k hk => ?_
    simp only [step_st (h k hk) (hl k hk), countDown_toNat_eq_sub]
    rfl

/-- Settles O16: by induction on the number of steps; each is the bare frame of a step, which counts both timers down. -/
theorem waitingTimersReachZeroAfterThatManyTicks : Obligations.WaitingTimersReachZeroAfterThatManyTicks := by
  intro s n hw
  induction n with
  | zero => exact ⟨s, rfl, rfl, rfl, hw, rfl⟩
  | succ n ih =>
    obtain ⟨u, hu, hdt, hst, huw, hpc⟩ := ih
    refine ⟨State.finishStep (State.beginStep { u with inputs := ⟨some true, none⟩ }), ?_, ?_, ?_, huw, hpc⟩
    · rw [Function.iterate_succ_apply', hu, Option.bind_some, step_of_wait (by exact huw)]
    · rw [State.finishStep_dt, countDown_toNat_eq_sub, Nat.sub_add_eq, ← hdt]
      rfl
    · rw [State.finishStep_st, countDown_toNat_eq_sub, Nat.sub_add_eq, ← hst]
      rfl

end Sys2Proof
end

section
/-! PROOFS. Steps that come back to where they were: stack faults, which repeat for ever (spec 60_exceptions.md R180), and a
jump to itself (70_reset_and_hazards.md R211). -/

namespace Sys2Proof.Machine

variable {s u : State} {i : Instr} {f : Fault}

/-! ## A faulting step -/

/-- The step raises `f` and leaves every part of the state but those of the timer phase. -/
def FaultsInPlace (f : Fault) (s : State) : Prop :=
  ∃ u, step s = .next u ∧ u.out.fault = some f ∧ SameExcept timerParts s u

/-- An instruction that raises a fault puts `PC` back to its own address (R97, R173). -/
theorem faultsInPlace_of_exec (hi : s.executes i) (he : exec i s.dispatched = .next (s.dispatched.raiseFault f)) :
    FaultsInPlace f s := by
  refine ⟨_, step_of_executes hi he, rfl, ?_⟩
  simp [sameExcept_iff, timerParts]

theorem faultsInPlace_of_call_full {nnn : Addr} (hi : s.executes (.call nnn)) (hs : 16 ≤ s.sp) :
    FaultsInPlace .stackOverflow s :=
  faultsInPlace_of_exec hi (exec_call_of_full nnn hs)

theorem top_of_sp_zero (hs : s.sp = 0) : s.top = none := by
  rw [State.top, List.length_eq_zero_iff.mp hs, List.getLast?_nil]

theorem faultsInPlace_of_ret_empty (hi : s.executes .ret) (hs : s.sp = 0) : FaultsInPlace .stackUnderflow s :=
  faultsInPlace_of_exec hi (exec_ret_of_empty (s := s.dispatched) (top_of_sp_zero hs))

/-! ## A run of faulting steps -/

theorem core_run_succ (h : step s = .next u) (n : Nat) : core.run (n + 1) s = core.run n u := by
  have hs : core.step s = .next u := h
  simp only [Host.Core.run, hs]

/-- If a condition makes a step fault in place and looks at no part that such a step changes, then every further step
faults too. -/
theorem run_faults_of_condition {P : State → Prop} (hfault : ∀ s, P s → FaultsInPlace f s)
    (hkeep : ∀ s u, SameExcept timerParts s u → P s → P u) (n : Nat) (hs : P s) :
    ∃ u, core.run (n + 1) s = .next u ∧ u.out.fault = some f ∧ SameExcept timerParts s u := by
  induction n generalizing s with
  | zero =>
    obtain ⟨u, hu, hf, hsu⟩ := hfault s hs
    exact ⟨u, core_run_succ hu 0, hf, hsu⟩
  | succ n ih =>
    obtain ⟨u, hu, -, hsu⟩ := hfault s hs
    obtain ⟨v, hv, hf, huv⟩ := ih (hkeep s u hsu hs)
    exact ⟨v, (core_run_succ hu (n + 1)).trans hv, hf, hsu.trans huv⟩

theorem sp_of_sameExcept_timerParts (hsu : SameExcept timerParts s u) : u.sp = s.sp := by
  have hstack : u.stack = s.stack := hsu .stack (by simp [timerParts])
  rw [State.sp, State.sp, hstack]

/-! ## A jump to itself -/

/-- A parked step jumps to where it came from. -/
theorem step_of_parked (hs : s.parked) : ∃ u, step s = .next u ∧ SameExcept timerParts s u := by
  obtain ⟨nnn, hi, hpc⟩ := hs
  refine ⟨_, step_of_executes hi (exec_jp nnn s.dispatched), ?_⟩
  simp [sameExcept_iff, timerParts, hpc]

theorem parked_of_sameExcept_timerParts (hsu : SameExcept timerParts s u) (hs : s.parked) : u.parked := by
  obtain ⟨nnn, hi, hpc⟩ := hs
  exact ⟨nnn, State.executes_of_sameExcept_timerParts hsu hi, hpc.trans (hsu .pc (by simp [timerParts])).symm⟩

end Sys2Proof.Machine

namespace Sys2Proof

open Machine

/-- Settles O22: a full stack under a `CALL`, an empty one under a `RET`, are conditions that a faulting step keeps. -/
theorem stackFaultsRepeatForever : Obligations.StackFaultsRepeatForever := by
  refine fun s n => ⟨fun hi hs => ?overflow, fun hi hs => ?underflow⟩
  case overflow =>
    refine run_faults_of_condition (P := fun s => (∃ nnn, s.executes (.call nnn)) ∧ 16 ≤ s.sp) ?_ ?_ n ⟨hi, hs⟩
    · rintro s ⟨⟨nnn, hi⟩, hs⟩
      exact faultsInPlace_of_call_full hi hs
    · rintro s u hsu ⟨⟨nnn, hi⟩, hs⟩
      exact ⟨⟨nnn, State.executes_of_sameExcept_timerParts hsu hi⟩, (sp_of_sameExcept_timerParts hsu).symm ▸ hs⟩
  case underflow =>
    refine run_faults_of_condition (P := fun s => s.executes .ret ∧ s.sp = 0) ?_ ?_ n ⟨hi, hs⟩
    · rintro s ⟨hi, hs⟩
      exact faultsInPlace_of_ret_empty hi hs
    · rintro s u hsu ⟨hi, hs⟩
      exact ⟨State.executes_of_sameExcept_timerParts hsu hi, (sp_of_sameExcept_timerParts hsu).trans hs⟩

/-- Settles O59. -/
theorem parkedProgramStaysParked : Obligations.ParkedProgramStaysParked := by
  intro s hs
  obtain ⟨u, hu, hsu⟩ := step_of_parked hs
  exact ⟨u, hu, hsu, parked_of_sameExcept_timerParts hsu hs⟩

end Sys2Proof
end

section
/-! PROOFS. The random input (spec 42_alu.md R131; 00_scope.md R6): no instruction but `RND` reads the inputs of its step. -/

namespace Sys2Proof.Machine

variable {s t : State}

theorem drawRows_supply (s : State) (tick : Bool) (rnd : Byte) (x y n : Nat) (d : Drawing) :
    (s.supply tick rnd).drawRows x y n d = s.drawRows x y n d := by
  induction n with
  | zero => rfl
  | succ n ih => rw [State.drawRows, State.drawRows, ih, State.supply_peek, State.supply_ea]

theorem loadRegsFrom_supply (s t : State) (tick : Bool) (rnd : Byte) (a n : Nat) :
    loadRegsFrom (s.supply tick rnd) a n (t.supply tick rnd) = (loadRegsFrom s a n t).supply tick rnd := by
  induction n with
  | zero => rfl
  | succ n ih => rw [loadRegsFrom, ih, loadRegsFrom, State.supply_peek]; rfl

/-- Supplying inputs and executing an instruction other than `RND` commute. -/
theorem exec_supply {i : Instr} (hi : ∀ x nn, i ≠ .rnd x nn) (h : exec i s = .next t) (tick : Bool) (rnd : Byte) :
    exec i (s.supply tick rnd) = .next (t.supply tick rnd) := by
  cases i with
  | rnd x nn => exact absurd rfl (hi x nn)
  | ret =>
    rcases exec_ret_cases h with ⟨hs, rfl⟩ | ⟨w, hs, rfl⟩
    · exact exec_ret_of_empty hs
    · exact exec_ret_of_top hs
  | call nnn =>
    rcases exec_call_cases h with ⟨hs, rfl⟩ | ⟨hs, rfl⟩
    · exact exec_call_of_full nnn hs
    · exact exec_call_of_room nnn hs
  | drw x y n =>
    cases h
    rw [exec_drw, State.spriteDrawing, drawRows_supply]
    rfl
  | ldRegs x =>
    cases h
    exact congrArg Host.Outcome.next (loadRegsFrom_supply s (s.noteAccess _ _) tick rnd _ _)
  | _ => cases h; rfl

end Sys2Proof.Machine

namespace Sys2Proof

open Machine

/-- Settles O32: in each of the three cases of a step the supplied byte reaches the end of the step, which drops it. -/
theorem randomInputReachesOnlyRnd : Obligations.RandomInputReachesOnlyRnd := by
  intro s r r' tick hrnd
  rcases s.wait_or_unknown_or_executes with hw | ⟨hw, e, he⟩ | ⟨i, hi⟩
  · rw [step_of_wait (s := s.supply tick r) hw, step_of_wait (s := s.supply tick r') hw]
    rfl
  · rw [step_of_unknown (s := s.supply tick r) hw he, step_of_unknown (s := s.supply tick r') hw he]
    rfl
  · obtain ⟨t, ht⟩ := exec_next i s.dispatched
    have hne : ∀ x nn, i ≠ .rnd x nn := fun x nn h => hrnd x nn (h ▸ hi)
    rw [step_of_executes (s := s.supply tick r) hi (exec_supply hne ht tick r),
      step_of_executes (s := s.supply tick r') hi (exec_supply hne ht tick r')]
    rfl

end Sys2Proof
end

section
/-! PROOFS. Registers, flags and the record: what an instruction leaves of them (spec 10_state.md R22, R40), and faults
(40_step_cycle.md R97). -/

namespace Sys2Proof.Machine

variable {s t : State} {i : Instr}

/-- A register that an instruction does not name as its destination, and that is not the flag of a flag-setting one, is
unchanged. -/
theorem exec_reg_of_not_writesReg (h : exec i s = .next t) {r : Reg} (hr : i.writesReg r = false) : t.reg r = s.reg r := by
  cases i with
  | ldImm | addImm | ldReg | orReg | andReg | xorReg | rnd | ldFromDt | addReg | subReg | shr | subnReg | shl | drw =>
    cases h
    simp_all [Instr.writesReg]
  | ldRegs x =>
    cases h
    have hlt : ¬ r.toNat < x.toNat + 1 := by simpa [Instr.writesReg, Nat.lt_succ_iff] using hr
    rw [reg_loadRegsFrom _ _ _ _ x.isLt, if_neg hlt]
    rfl
  | _ => exact exec_sameExcept h .regs (by simp [Instr.writes]) r

theorem State.reg_setFlag_flagReg (s : State) (f : Bool) : (s.setFlag f).reg 0xF = flagByte f := by
  simp [flagReg]

/-- A flag-setting instruction leaves 0 or 1 in `V[F]`, which it writes last (R22, R132). -/
theorem exec_flag (h : exec i s = .next t) (hi : i.setsFlag = true) : t.reg 0xF = 0 ∨ t.reg 0xF = 1 := by
  have hflag : ∃ f, t.reg 0xF = flagByte f := by
    cases i with
    | addReg | subReg | shr | subnReg | shl | drw => cases h; exact ⟨_, State.reg_setFlag_flagReg _ _⟩
    | _ => cases hi
  obtain ⟨f, hf⟩ := hflag
  rw [hf]
  exact flagByte_cases f

/-- Only `CALL` and `RET` raise a fault; the other notes in the record leave it alone. -/
theorem exec_fault (h : exec i s = .next t) : t.out.fault = s.out.fault ∨ i = .ret ∨ ∃ nnn, i = .call nnn := by
  cases i with
  | ret => exact .inr (.inl rfl)
  | call nnn => exact .inr (.inr ⟨nnn, rfl⟩)
  | drw | ldB | stRegs => cases h; exact .inl rfl
  | ldRegs => cases h; rw [loadRegsFrom_eq]; exact .inl rfl
  | _ =>
    have hout : t.out = s.out := exec_sameExcept h .record (by simp [Instr.writes])
    exact .inl (congrArg _ hout)

end Sys2Proof.Machine

namespace Sys2Proof

open Machine

/-- Settles O57. -/
theorem unwrittenRegistersAreUnchanged : Obligations.UnwrittenRegistersAreUnchanged :=
  fun _ _ _ _ h hr => exec_reg_of_not_writesReg h hr

/-- Settles O33: a flag write is a `flagByte`; without one, `V[F]` is a register like the others. -/
theorem flagIsWrittenByItsInstructionsOnly : Obligations.FlagIsWrittenByItsInstructionsOnly :=
  fun _ _ _ h => ⟨exec_flag h, fun _ hr => exec_reg_of_not_writesReg h hr⟩

/-- Settles O10. -/
theorem onlyCallAndRetRaiseAFault : Obligations.OnlyCallAndRetRaiseAFault := by
  intro i s
  obtain ⟨t, ht⟩ := exec_next i s
  exact ⟨t, ht, fun hne => (exec_fault ht).resolve_left hne⟩

end Sys2Proof
end

section
/-! PROOFS. Memory as a step and a host see it (spec 20_memory.md; 43_index_memory.md R143 to R145): the fetch, the byte
accesses, the block transfers and `Load`. -/

namespace Sys2Proof

/-- The big-endian value of a word (R56). -/
theorem wordOfBytes_toNat (hi lo : Byte) : (wordOfBytes hi lo).toNat = hi.toNat * 256 + lo.toNat := by
  have hhi : hi.toNat < 256 := hi.isLt
  have hlo : lo.toNat < 2 ^ 8 := lo.isLt
  rw [wordOfBytes, BitVec.toNat_or, BitVec.toNat_shiftLeft, BitVec.toNat_setWidth_of_le (by decide),
    BitVec.toNat_setWidth_of_le (by decide), Nat.mod_eq_of_lt (by rw [Nat.shiftLeft_eq]; omega),
    ← Nat.shiftLeft_add_eq_or_of_lt hlo, Nat.shiftLeft_eq]

namespace Machine

variable {s t : State}

theorem peek_above (s : State) {a : Nat} (h : 4095 < a) : s.peek a = 0 := memRead_above s.mem h

theorem memWrite_above (m : Memory) {a : Nat} (v : Byte) (h : 4095 < a) : memWrite m a v = m :=
  if_neg (Nat.not_le.mpr h)

/-! ## A block in memory -/

theorem peek_of_mem_block_inside (hs : s.Inv) {a k : Nat} {bs : List Byte} (ht : t.mem = memWriteAll s.mem a bs)
    (hk : k < bs.length) (ha : a + k ≤ 4095) : t.peek (a + k) = bs[k] := by
  rw [State.peek, ht, memRead_memWriteAll_inside hs.1 a bs k hk ha]

theorem peek_of_mem_block_outside {a c : Nat} {bs : List Byte} (ht : t.mem = memWriteAll s.mem a bs)
    (hc : c < a ∨ a + bs.length ≤ c) : t.peek c = s.peek c := by
  rw [State.peek, ht, memRead_memWriteAll_outside _ _ _ hc, State.peek]

theorem State.ea_zero (s : State) : s.ea 0 = s.i.toNat := rfl

@[simp] theorem State.length_regRange (s : State) (x : Reg) : (s.regRange x).length = x.toNat + 1 := by
  simp [State.regRange]

theorem State.getElem_regRange (s : State) (x k : Reg) (h : k.toNat < (s.regRange x).length) :
    (s.regRange x)[k.toNat] = s.reg k := by
  simp [State.regRange]

/-- What `FX55` leaves in memory, register by register (R144). -/
theorem peek_of_mem_regRange (hs : s.Inv) {x k : Reg} (ht : t.mem = memWriteAll s.mem s.i.toNat (s.regRange x))
    (hk : k.toNat ≤ x.toNat) (ha : s.i.toNat + k.toNat ≤ 4095) : t.peek (s.i.toNat + k.toNat) = s.reg k := by
  have hlen : k.toNat < (s.regRange x).length := by rw [State.length_regRange]; omega
  rw [peek_of_mem_block_inside hs ht hlen ha, State.getElem_regRange]

/-- What `FX65` leaves in the registers (R145). -/
theorem reg_of_exec_ldRegs {x : Reg} (h : exec (.ldRegs x) s = .next t) (k : Reg) :
    t.reg k = if k.toNat ≤ x.toNat then s.peek (s.i.toNat + k.toNat) else s.reg k := by
  cases h
  rw [reg_loadRegsFrom _ _ _ _ x.isLt]
  simp only [Nat.lt_succ_iff, State.ea_zero, State.noteAccess_reg]

end Machine

open Machine

/-- Settles O11. -/
theorem fetchIsBigEndianAtAnyPc : Obligations.FetchIsBigEndianAtAnyPc := by
  refine fun s => ⟨wordOfBytes_toNat _ _, fun h => ?_⟩
  rw [State.fetchWord, State.peekWord, peek_above s h, peek_above s (Nat.lt_succ_of_lt h)]
  rfl

/-- Settles O12. -/
theorem fetchSeesStoredBytes : Obligations.FetchSeesStoredBytes := by
  intro s hi lo hs hpc
  exact peekWord_memWriteAll (s := s) (t := s.storeBytes s.pc.toNat [hi, lo]) hs.1 hpc rfl

/-- Settles O13. -/
theorem byteAccessesAreBoundsChecked : Obligations.ByteAccessesAreBoundsChecked := by
  refine fun m a v hm => ⟨fun h => ⟨memRead_above m h, memWrite_above m v h⟩, fun h => ?_, fun c hc => ?_⟩
  · rw [memRead_memWrite_self hm, if_pos (by exact h)]
  · exact memRead_memWrite_ne m v hc

/-- Settles O35: the digits are one block of three bytes, each digit small enough for its byte. -/
theorem bcdStoresTheThreeDigits : Obligations.BcdStoresTheThreeDigits := by
  intro x s hs
  have hv : (s.reg x).toNat < 256 := (s.reg x).isLt
  have hmem : (s.storeBytes (s.ea 0) (bcdDigits (s.reg x))).mem =
      memWriteAll s.mem s.i.toNat (bcdDigits (s.reg x)) := rfl
  refine ⟨_, exec_ldB x s, fun h => ?hundreds, fun h => ?tens, fun h => ?ones, fun a ha => ?others, ?note,
    exec_sameExcept (exec_ldB x s)⟩
  case hundreds =>
    rw [← Nat.add_zero s.i.toNat, peek_of_mem_block_inside hs hmem (k := 0) (by simp [bcdDigits]) h]
    exact Nat.mod_eq_of_lt (show (s.reg x).toNat / 100 < 256 by omega)
  case tens =>
    rw [peek_of_mem_block_inside hs hmem (by simp [bcdDigits]) h]
    exact Nat.mod_eq_of_lt (show (s.reg x).toNat / 10 % 10 < 256 by omega)
  case ones =>
    rw [peek_of_mem_block_inside hs hmem (by simp [bcdDigits]) h]
    exact Nat.mod_eq_of_lt (show (s.reg x).toNat % 10 < 256 by omega)
  case others => exact peek_of_mem_block_outside hmem ha
  case note => rw [State.storeBytes_out, show (bcdDigits (s.reg x)).length = 2 + 1 from rfl, oobIn_succ, State.ea_zero]

/-- Settles O36: the registers are one block. -/
theorem storeRegistersWritesTheRange : Obligations.StoreRegistersWritesTheRange := by
  intro x s hs
  have hmem : (s.storeBytes (s.ea 0) (s.regRange x)).mem = memWriteAll s.mem s.i.toNat (s.regRange x) := rfl
  refine ⟨_, exec_stRegs x s, fun k hk hr => peek_of_mem_regRange hs hmem hk hr, fun a ha => ?others, ?note,
    exec_sameExcept (exec_stRegs x s)⟩
  case others =>
    refine peek_of_mem_block_outside hmem ?_
    rw [State.length_regRange]
    omega
  case note => rw [State.storeBytes_out, State.length_regRange, oobIn_succ, State.ea_zero]

/-- Settles O37. -/
theorem loadRegistersReadsTheRange : Obligations.LoadRegistersReadsTheRange := by
  intro x s
  refine ⟨_, exec_ldRegs x s, reg_of_exec_ldRegs (exec_ldRegs x s), fun k hk hr => ?above, ?note,
    exec_sameExcept (exec_ldRegs x s)⟩
  case above => rw [reg_of_exec_ldRegs (exec_ldRegs x s), if_pos hk, peek_above s hr]
  case note =>
    have hout := loadRegsFrom_sameExcept s (s.noteAccess (s.ea 0) (x.toNat + 1)) (s.ea 0) (x.toNat + 1) .record (by simp)
    rw [hout, State.noteAccess_out, oobIn_succ, State.ea_zero]

/-- Settles O38: `FX65` reads at `I + k` what `FX55` stored there. -/
theorem loadAfterStoreRestoresTheRegisters : Obligations.LoadAfterStoreRestoresTheRegisters := by
  intro x s t u hs hr ht hi hmem
  cases ht
  refine ⟨_, exec_ldRegs x u, fun k hk => ?_⟩
  rw [reg_of_exec_ldRegs (exec_ldRegs x u), if_pos hk, hi]
  exact peek_of_mem_regRange hs hmem hk (by omega)

namespace Machine

/-! ## `Load` (R68, R69) -/

theorem loadFits_iff {bytes : List Byte} {offset : Nat} : loadFits bytes offset = true ↔ offset + bytes.length ≤ 4096 :=
  decide_eq_true_iff

variable {s : State} {bytes : List Byte}

theorem transact_load_of_fits {offset : Nat} (h : offset + bytes.length ≤ 4096) :
    transact (.load bytes (some offset)) s = .next (s.setMem (memWriteAll s.mem offset bytes), .loaded) := by
  simp [transact, State.load, loadFits_iff.mpr h]

theorem transact_load_of_too_large {offset : Nat} (h : 4096 < offset + bytes.length) :
    transact (.load bytes (some offset)) s = .next (s, .romTooLarge) := by
  have hfits : ¬ loadFits bytes offset = true := fun hf => Nat.not_le.mpr h (loadFits_iff.mp hf)
  simp [transact, State.load, hfits]

end Machine

/-- Settles O48: an image that fits is one block, inside memory. -/
theorem loadWritesTheImageOrNothing : Obligations.LoadWritesTheImageOrNothing := by
  refine fun s bytes offset hs => ⟨rfl, fun h => ?_, transact_load_of_too_large⟩
  refine ⟨_, transact_load_of_fits h, fun k hk => ?_, fun a ha => ?_, s.setMem_sameExcept _⟩
  · exact peek_of_mem_block_inside hs rfl hk (by omega)
  · exact peek_of_mem_block_outside rfl ha

end Sys2Proof
end

section
/-! PROOFS. Control transfer, arithmetic, logic, shifts, the random byte and the index register (spec 41_control_transfer.md,
42_alu.md, 43_index_memory.md section 2): the value each instruction computes, as a number. -/

namespace Sys2Proof.Machine

/-! ## Values -/

@[simp] theorem zextByte_toNat (b : Byte) : (zextByte b).toNat = b.toNat :=
  BitVec.toNat_setWidth_of_le (by decide)

/-- The sum of `JP V0, NNN` does not wrap (R107; D4). -/
theorem zextByte_add_zextAddr_toNat (b : Byte) (nnn : Addr) :
    (zextByte b + zextAddr nnn).toNat = b.toNat + nnn.toNat := by
  have hb : b.toNat < 256 := b.isLt
  have hn : nnn.toNat < 4096 := nnn.isLt
  rw [BitVec.toNat_add, zextByte_toNat, zextAddr_toNat, Nat.mod_eq_of_lt (by omega)]

/-- The product of `LD F, Vx` does not wrap (R142; D30). -/
theorem zextByte_mul_five_toNat (b : Byte) : (zextByte b * 5).toNat = 5 * b.toNat := by
  have hb : b.toNat < 256 := b.isLt
  rw [BitVec.toNat_mul, zextByte_toNat, show (5 : Word).toNat = 5 from rfl, Nat.mod_eq_of_lt (by omega), Nat.mul_comm]

/-- Subtraction of bytes is subtraction modulo 256 (R127, R133). -/
theorem ofNat_sub_mod_256 (a b : Byte) : BitVec.ofNat 8 ((256 + a.toNat - b.toNat) % 256) = a - b := by
  have ha : a.toNat < 256 := a.isLt
  have hb : b.toNat < 256 := b.isLt
  refine BitVec.eq_of_toNat_eq ?_
  rw [BitVec.toNat_ofNat, BitVec.toNat_sub]
  omega

theorem ofNat_div_two (a : Byte) : BitVec.ofNat 8 (a.toNat / 2) = a >>> 1 := by
  have ha : a.toNat < 256 := a.isLt
  refine BitVec.eq_of_toNat_eq ?_
  rw [BitVec.toNat_ofNat, BitVec.toNat_ushiftRight, Nat.shiftRight_eq_div_pow]
  omega

theorem ofNat_mul_two_mod_256 (a : Byte) : BitVec.ofNat 8 (a.toNat * 2 % 256) = a <<< 1 := by
  refine BitVec.eq_of_toNat_eq ?_
  rw [BitVec.toNat_ofNat, BitVec.toNat_shiftLeft, Nat.shiftLeft_eq]
  omega

/-! ## Flags -/

theorem flagByte_decide (p : Prop) [Decidable p] : flagByte (decide p) = if p then 1 else 0 := by
  simp [flagByte]

/-- A number below 2 is the flag of its being 1. -/
theorem ofNat_eq_flagByte {n : Nat} (h : n < 2) : BitVec.ofNat 8 n = flagByte (decide (n = 1)) := by
  interval_cases n <;> rfl

/-- The bit that `SHR` shifts out (R128). -/
theorem flagByte_shrFlag (a : Byte) : flagByte (shrFlag a) = BitVec.ofNat 8 (a.toNat % 2) := by
  rw [ofNat_eq_flagByte (Nat.mod_lt _ (by decide)), shrFlag, BitVec.getLsbD, Nat.testBit_zero]

/-- The bit that `SHL` shifts out (R130). -/
theorem flagByte_shlFlag (a : Byte) : flagByte (shlFlag a) = BitVec.ofNat 8 (a.toNat / 128) := by
  have ha : a.toNat / 128 < 2 := Nat.div_lt_of_lt_mul a.isLt
  rw [ofNat_eq_flagByte ha, shlFlag, BitVec.getLsbD, Nat.testBit_eq_decide_div_mod_eq]
  exact congrArg (fun n => flagByte (decide (n = 1))) (Nat.mod_eq_of_lt ha)

theorem State.setResult_writesResult (s : State) (x : Reg) (b : Byte) (f : Bool) :
    WritesResult s (s.setResult x b f) x b (flagByte f) :=
  ⟨fun r => s.reg_setResult x r b f, s.setResult_sameExcept x b f⟩

/-! ## Selected keys and the stack -/

/-- `V[x]` selects a key by its value modulo 16 (R166; D11). -/
theorem State.keyOf_eq {s : State} {x : Reg} {k : Key} (h : k.toNat = (s.reg x).toNat % 16) : s.keyOf x = k := by
  refine BitVec.eq_of_toNat_eq ?_
  rw [State.keyOf, BitVec.extractLsb'_toNat, h, Nat.shiftRight_zero]

theorem State.top_of_stack {s : State} {below : List Word} {w : Word} (h : s.stack = below ++ [w]) : s.top = some w := by
  simp [State.top, h]

end Sys2Proof.Machine

namespace Sys2Proof

open Machine

/-! ## Control transfer -/

/-- Settles O18. -/
theorem jumpV0AddsTheOffset : Obligations.JumpV0AddsTheOffset :=
  fun nnn s => ⟨_, exec_jpV0 nnn s, zextByte_add_zextAddr_toNat _ _, s.setPc_sameExcept _⟩

/-- Settles O19. -/
theorem callPushesTheReturnAddress : Obligations.CallPushesTheReturnAddress := by
  refine fun nnn s hs => ⟨_, exec_call_of_room nnn hs, zextAddr_toNat nnn, rfl, ?_, s.push_setPc_sameExcept _ _⟩
  simp [State.sp]

/-- Settles O20. -/
theorem retPopsTheNewestEntry : Obligations.RetPopsTheNewestEntry := by
  refine fun s below w hs => ⟨_, exec_ret_of_top (State.top_of_stack hs), rfl, ?_, s.dropTop_setPc_sameExcept w⟩
  simp [hs]

/-- Settles O21. -/
theorem stackFaultsWriteNothing : Obligations.StackFaultsWriteNothing :=
  fun nnn s => ⟨fun hs => ⟨_, exec_call_of_full nnn hs, rfl, rfl, s.raiseFault_sameExcept _⟩,
    fun hs => ⟨_, exec_ret_of_empty (top_of_sp_zero hs), rfl, rfl, s.raiseFault_sameExcept _⟩⟩

/-- Settles O24. -/
theorem registerSkipsCompareTwoRegisters : Obligations.RegisterSkipsCompareTwoRegisters := by
  refine fun x y n s => ⟨⟨_, exec_seReg x y n s, ?_, s.skipIf_sameExcept _⟩,
    ⟨_, exec_sneReg x y n s, ?_, s.skipIf_sameExcept _⟩⟩ <;> simp

/-- Settles O25. -/
theorem keySkipsTestTheLatch : Obligations.KeySkipsTestTheLatch := by
  refine fun x k s hk => ⟨⟨_, exec_skp x s, ?down, s.skipIf_sameExcept _⟩,
    ⟨_, exec_sknp x s, ?up, s.skipIf_sameExcept _⟩⟩
  case down => rw [State.skipIf_pc, State.keyOf_eq hk]
  case up =>
    rw [State.skipIf_pc, State.keyOf_eq hk]
    cases s.key k <;> rfl

/-! ## Arithmetic, logic, shifts, random -/

/-- Settles O27: each instruction is one write of `V[x]`, with the bitwise operation of the two registers. -/
theorem logicCombinesBits : Obligations.LogicCombinesBits :=
  fun x y s => ⟨⟨_, _, exec_orReg x y s, s.setReg_writesOnly x _, fun _ _ => BitVec.getLsbD_or⟩,
    ⟨_, _, exec_andReg x y s, s.setReg_writesOnly x _, fun _ _ => BitVec.getLsbD_and⟩,
    ⟨_, _, exec_xorReg x y s, s.setReg_writesOnly x _, fun _ _ => BitVec.getLsbD_xor⟩⟩

/-- Settles O28. -/
theorem addSetsSumAndCarry : Obligations.AddSetsSumAndCarry := by
  refine fun x y s => ⟨_, exec_addReg x y s, ?_⟩
  rw [ofNat_add_mod_256, ← flagByte_decide]
  exact s.setResult_writesResult x _ _

/-- Settles O29. -/
theorem subtractSetsDifferenceAndStrictFlag : Obligations.SubtractSetsDifferenceAndStrictFlag := by
  refine fun x y s => ⟨⟨_, exec_subReg x y s, ?_⟩, ⟨_, exec_subnReg x y s, ?_⟩⟩ <;>
    rw [ofNat_sub_mod_256, ← flagByte_decide] <;> exact s.setResult_writesResult x _ _

/-- Settles O30. -/
theorem shiftsMoveOneBitIntoTheFlag : Obligations.ShiftsMoveOneBitIntoTheFlag := by
  refine fun x y s => ⟨⟨_, exec_shr x y s, ?_⟩, ⟨_, exec_shl x y s, ?_⟩⟩
  · rw [ofNat_div_two, ← flagByte_shrFlag]
    exact s.setResult_writesResult x _ _
  · rw [ofNat_mul_two_mod_256, ← flagByte_shlFlag]
    exact s.setResult_writesResult x _ _

/-- Settles O31: the write of `V[x]`, then the draw, which touches no register. -/
theorem randomByteIsMasked : Obligations.RandomByteIsMasked := by
  refine fun x nn s => ⟨_, exec_rnd x nn s, fun r => s.reg_setReg x r _, rfl, s.setReg_drawRnd_sameExcept x _,
    fun r hr => ?_⟩
  simp [State.rndValue, hr]

/-! ## The index register -/

/-- Settles O34. -/
theorem indexInstructionsSetI : Obligations.IndexInstructionsSetI := by
  refine fun x nnn s => ⟨⟨_, exec_ldI nnn s, zextAddr_toNat nnn, s.setI_sameExcept _⟩,
    ⟨_, exec_addI x s, ?_, s.setI_sameExcept _⟩, ⟨_, exec_ldF x s, zextByte_mul_five_toNat _, s.setI_sameExcept _⟩⟩
  rw [State.setI_i, BitVec.toNat_add, zextByte_toNat]

end Sys2Proof
end

section
/-! PROOFS. The display (spec 44_display.md): what `CLS` and `DRW` do to a cell, and the collision. -/

namespace Sys2Proof.Machine

variable {s t u : State} {x y : Reg} {n : Nibble}

/-- The rows drawn hit a cell exactly when the cell exists and a 1 bit of the sprite falls on it (R151, R152). -/
theorem rowsHit_iff_spriteOn {idx : Nat} :
    rowsHit s (s.reg x).toNat (s.reg y).toNat n.toNat idx ↔ idx ≤ 2047 ∧ s.spriteOn x y n idx := by
  constructor
  · rintro ⟨row, hrow, hidx, col, hcol, hbit⟩
    exact ⟨hidx, row, hrow, col, hcol, hbit⟩
  · rintro ⟨hidx, row, hrow, col, hcol, hbit⟩
    exact ⟨row, hrow, hidx, col, hcol, hbit⟩

/-- A `DRW` inverts the cells its sprite falls on (R151). -/
theorem cell_of_exec_drw_on (h : exec (.drw x y n) s = .next t) {idx : Nat} (hon : idx ≤ 2047 ∧ s.spriteOn x y n idx) :
    t.cell idx = !s.cell idx := by
  classical
  cases h
  have hcell := drawRows_cell s (s.reg x).toNat (s.reg y).toNat n.toNat idx ⟨s.fb, false⟩
  rwa [decide_eq_true (rowsHit_iff_spriteOn.mpr hon), Bool.xor_true] at hcell

/-- A `DRW` leaves every other cell as it is (R151). -/
theorem cell_of_exec_drw_off (h : exec (.drw x y n) s = .next t) {idx : Nat}
    (hoff : ¬ (idx ≤ 2047 ∧ s.spriteOn x y n idx)) : t.cell idx = s.cell idx := by
  classical
  cases h
  have hcell := drawRows_cell s (s.reg x).toNat (s.reg y).toNat n.toNat idx ⟨s.fb, false⟩
  rwa [decide_eq_false fun hhit => hoff (rowsHit_iff_spriteOn.mp hhit), Bool.xor_false] at hcell

theorem flagByte_eq_one_iff {f : Bool} : flagByte f = 1 ↔ f = true := by
  cases f <;> decide

/-- The flag of a `DRW`: a 1 bit of the sprite met a lit cell (R153). -/
theorem flag_of_exec_drw (h : exec (.drw x y n) s = .next t) :
    t.reg 0xF = 1 ↔ ∃ idx ≤ 2047, s.spriteOn x y n idx ∧ s.cell idx = true := by
  classical
  rw [exec_drw] at h
  cases h
  rw [State.reg_setFlag_flagReg, flagByte_eq_one_iff, State.spriteDrawing, drawRows_collision, Bool.false_or,
    decide_eq_true_iff]
  simp only [rowsHit_iff_spriteOn, and_assoc]
  rfl

/-- The sprite depends on the two coordinates, on `I` and on memory. -/
theorem spriteOn_congr (hx : u.reg x = s.reg x) (hy : u.reg y = s.reg y) (hi : u.i = s.i)
    (hmem : ∀ a, u.peek a = s.peek a) (idx : Nat) : u.spriteOn x y n idx ↔ s.spriteOn x y n idx := by
  simp only [State.spriteOn, State.spriteBit, State.ea, hx, hy, hi, hmem]

theorem oobIn_eq_decide (a n : Nat) : oobIn a n = decide (0 < n ∧ 4095 < a + n - 1) := by
  rw [Bool.eq_iff_iff, oobIn_iff, decide_eq_true_iff, memTop_eq]

theorem decode_eq_cls_iff {op : Word} : decode op = .ok .cls ↔ op = 0x00E0 := decode_eq_ok_iff

end Sys2Proof.Machine

namespace Sys2Proof

open Machine

/-- Settles O39: the word of `CLS` is the only one that decodes to it. -/
theorem clsClearsEveryCell : Obligations.ClsClearsEveryCell :=
  ⟨fun _ => decode_eq_cls_iff, fun s => ⟨_, exec_cls s, fbCell_fbClear, s.setFb_sameExcept _⟩⟩

/-- Settles O40: the drawing, cell by cell, and its collision. -/
theorem drawXorsTheSprite : Obligations.DrawXorsTheSprite := by
  intro x y n s
  have h := exec_drw x y n s
  refine ⟨_, h, fun idx hidx => ⟨fun hon => cell_of_exec_drw_on h ⟨hidx, hon⟩,
    fun hoff => cell_of_exec_drw_off h fun hon => hoff hon.2⟩, (flag_of_exec_drw h).mpr, fun hmiss => ?noCollision,
    fun r hr => ?registers, ?note, exec_sameExcept h⟩
  case noCollision =>
    refine (exec_flag h rfl).resolve_right fun hone => ?_
    obtain ⟨idx, hidx, hon, hlit⟩ := (flag_of_exec_drw h).mp hone
    exact absurd (hlit.symm.trans (hmiss idx hidx hon)) (by decide)
  case registers => exact exec_reg_of_not_writesReg h (by simpa [Instr.writesReg, flagReg] using hr)
  case note => rw [State.setFlag_out, State.setFb_out, State.noteAccess_out, oobIn_eq_decide, State.ea_zero]

/-- Settles O41: inverting a cell twice restores it, and a cell under the sprite is lit for the second draw exactly when it
was not for the first. -/
theorem drawTwiceRestoresTheDisplay : Obligations.DrawTwiceRestoresTheDisplay := by
  intro x y n s t u ht hfb hx hy hi hmem
  have hw := exec_drw x y n u
  have hsprite (idx) : u.spriteOn x y n idx ↔ s.spriteOn x y n idx := spriteOn_congr hx hy hi hmem idx
  have hcell (idx) : u.cell idx = t.cell idx := congrArg (fbCell · idx) hfb
  refine ⟨_, hw, fun idx => ?restored, (flag_of_exec_drw hw).trans ?collision⟩
  case restored =>
    by_cases hon : idx ≤ 2047 ∧ s.spriteOn x y n idx
    · rw [cell_of_exec_drw_on hw (by rwa [hsprite]), hcell, cell_of_exec_drw_on ht hon, Bool.not_not]
    · rw [cell_of_exec_drw_off hw (by rwa [hsprite]), hcell, cell_of_exec_drw_off ht hon]
  case collision =>
    refine exists_congr fun idx => and_congr_right fun hidx => ?_
    rw [hsprite, hcell]
    refine and_congr_right fun hon => ?_
    rw [cell_of_exec_drw_on ht ⟨hidx, hon⟩, Bool.not_eq_true']

end Sys2Proof
end

section
/-! PROOFS. Keys, timers and the host transactions (spec 45_keys_timers.md; 60_exceptions.md section 5;
70_reset_and_hazards.md section 1). -/

namespace Sys2Proof.Machine

variable {s u : State} {x : Reg}

/-! ## `KeyDown` and `KeyUp` (R188, R189) -/

theorem State.keyDown_of_wait (h : s.wait = true) (k : Key) :
    s.keyDown k = (((s.setKey k true).setReg (fieldX s.fetchWord) (zextKey k)).setWait false).setPc (s.pc + 2) :=
  if_pos h

theorem State.keyDown_of_not_wait (h : s.wait = false) (k : Key) : s.keyDown k = s.setKey k true :=
  if_neg (by simp [h])

theorem State.keyDown_key (s : State) (k j : Key) : (s.keyDown k).key j = if j = k then true else s.key j := by
  cases h : s.wait with
  | true => simp [State.keyDown_of_wait h]
  | false => simp [State.keyDown_of_not_wait h]

theorem zextKey_toNat (k : Key) : (zextKey k).toNat = k.toNat := BitVec.toNat_setWidth_of_le (by decide)

theorem State.keyDown_reg_of_wait (h : s.wait = true) (k : Key) (r : Reg) :
    (s.keyDown k).reg r = if r = fieldX s.fetchWord then zextKey k else s.reg r := by
  simp [State.keyDown_of_wait h]

theorem State.keyDown_sameExcept_of_wait (h : s.wait = true) (k : Key) :
    SameExcept [.keys, .regs, .waitFlag, .pc] s (s.keyDown k) := by
  simp [State.keyDown_of_wait h, sameExcept_iff]

theorem State.keyDown_sameExcept_of_not_wait (h : s.wait = false) (k : Key) : SameExcept [.keys] s (s.keyDown k) := by
  rw [State.keyDown_of_not_wait h]
  exact s.setKey_sameExcept k true

theorem State.keyDown_sameExcept (s : State) (k : Key) : SameExcept [.keys, .regs, .waitFlag, .pc] s (s.keyDown k) := by
  cases h : s.wait with
  | true => exact State.keyDown_sameExcept_of_wait h k
  | false => exact (State.keyDown_sameExcept_of_not_wait h k).mono (by simp)

theorem State.keyUp_key (s : State) (k j : Key) : (s.keyUp k).key j = if j = k then false else s.key j :=
  s.key_setKey k j false

/-! ## Waiting for a key (R162) -/

/-- The register a `LD Vx, K` names is in the `X` field of its word, where a `KeyDown` looks for it. -/
theorem fieldX_of_executes_ldKey (h : s.executes (.ldKey x)) : fieldX s.fetchWord = x := by
  rw [← encode_of_decode h.2, encode, fieldX_wordXNN]

/-- After the step of a `LD Vx, K` the machine waits at the instruction, with every register as it was. -/
theorem step_ldKey (hi : s.executes (.ldKey x)) (h : step s = .next u) :
    u.wait = true ∧ u.pc = s.pc ∧ u.fetchWord = s.fetchWord ∧ ∀ r, u.reg r = s.reg r := by
  rw [step_of_executes hi (exec_ldKey x s.dispatched)] at h
  cases h
  have hpc : s.pc + 2 - 2 = s.pc := BitVec.add_sub_cancel _ _
  exact ⟨rfl, hpc, State.fetchWord_congr hpc fun _ => rfl, fun _ => rfl⟩

/-! ## Transactions (R187) -/

theorem State.doReset_sameExcept (s : State) : SameExcept [.rndDraws, .tickDraws] State.reset s.doReset := by
  intro p hp
  cases p with
  | rndDraws | tickDraws => simp at hp
  | regs | keys | display | memory => exact fun _ => rfl
  | index | pc | stack | delayTimer | soundTimer | waitFlag | record | inputs => rfl

/-- The parts a `Reset` may change are all but the two counts of draws. -/
theorem State.doReset_writes (s : State) : SameExcept Transaction.reset.writes s s.doReset := by
  intro p hp
  cases p with
  | rndDraws | tickDraws => rfl
  | regs | keys | display | memory | index | pc | stack | delayTimer | soundTimer | waitFlag | record | inputs =>
    simp [Transaction.writes] at hp

theorem State.load_sameExcept (s : State) (bytes : List Byte) (offset : Nat) :
    SameExcept [.memory] s (s.load bytes offset) := by
  unfold State.load
  split
  · exact s.setMem_sameExcept _
  · exact SameExcept.refl s _

/-- `Load` leaves every byte outside the image, whether it fits or not. -/
theorem State.load_peek_outside (s : State) {bytes : List Byte} {offset a : Nat}
    (ha : a < offset ∨ offset + bytes.length ≤ a) : (s.load bytes offset).peek a = s.peek a := by
  unfold State.load
  split
  · exact peek_of_mem_block_outside rfl ha
  · rfl

theorem keys_notMem_writes {i : Instr} : Part.keys ∉ i.writes := by
  cases i <;> simp [Instr.writes]

/-- A step changes no key: instructions and the timer phase write none. -/
theorem step_keys (h : step s = .next u) (k : Key) : u.key k = s.key k := by
  rcases step_cases h with ⟨-, rfl⟩ | ⟨-, -, rfl⟩ | ⟨i, t, -, ht, rfl⟩
  · rfl
  · rfl
  · have htk : ∀ k, t.key k = s.key k := exec_sameExcept ht .keys keys_notMem_writes
    exact htk k

/-- The keys are the one part of the state that no step writes. -/
theorem step_writes (h : step s = .next u) (tick : Bool) (rnd : Byte) :
    SameExcept (Transaction.step tick rnd).writes s u := by
  intro p hp
  cases p with
  | keys => exact step_keys h
  | regs | display | memory | index | pc | stack | delayTimer | soundTimer | waitFlag | record | inputs | rndDraws
    | tickDraws => simp [Transaction.writes] at hp

/-- Every transaction completes, within the parts its row of R187 names. -/
theorem transact_writes (tr : Transaction) (s : State) :
    ∃ u r, transact tr s = .next (u, r) ∧ SameExcept tr.writes s u := by
  cases tr with
  | reset => exact ⟨_, _, rfl, s.doReset_writes⟩
  | load bytes offset => exact ⟨_, _, rfl, s.load_sameExcept bytes _⟩
  | step tick rnd =>
    obtain ⟨u, hu⟩ := step_answers (s.supply tick rnd)
    have hsupply : SameExcept (Transaction.step tick rnd).writes s (s.supply tick rnd) :=
      (s.supply_sameExcept tick rnd).mono (by simp [Transaction.writes])
    exact ⟨u, _, transact_step hu, hsupply.trans (step_writes hu tick rnd)⟩
  | keyDown k => exact ⟨_, _, rfl, s.keyDown_sameExcept k⟩
  | keyUp k => exact ⟨_, _, rfl, s.setKey_sameExcept k false⟩
  | readFramebuffer => exact ⟨_, _, rfl, SameExcept.refl s _⟩

/-- A wait outlasts every transaction but `Reset` and `KeyDown` (R189, R192). -/
theorem transact_wait {tr : Transaction} {r : Response} (h : transact tr s = .next (u, r)) (hw : s.wait = true) :
    u.wait = true ∨ tr = .reset ∨ ∃ k, tr = .keyDown k := by
  cases tr with
  | reset => exact .inr (.inl rfl)
  | keyDown k => exact .inr (.inr ⟨k, rfl⟩)
  | load bytes offset =>
    cases h
    have hload : (s.load bytes (loadOffset offset)).wait = s.wait := s.load_sameExcept bytes _ .waitFlag (by simp)
    exact .inl (hload.trans hw)
  | step tick rnd =>
    rw [transact_step (step_of_wait (s := s.supply tick rnd) hw)] at h
    cases h
    exact .inl hw
  | keyUp k => cases h; exact .inl hw
  | readFramebuffer => cases h; exact .inl hw

/-! ## The state after reset (R200, R201) -/

theorem reset_peek {a : Nat} (h : a ≤ 4095) : State.reset.peek a = Config.font.getD a 0 := if_pos h

end Sys2Proof.Machine

namespace Sys2Proof

open Machine

/-- Settles O42. -/
theorem waitForKeySuspendsAtTheInstruction : Obligations.WaitForKeySuspendsAtTheInstruction :=
  fun x s => ⟨_, exec_ldKey x s, rfl, rfl, s.setWait_setPc_sameExcept _ _⟩

/-- Settles O43. -/
theorem keyDownResolvesAWait : Obligations.KeyDownResolvesAWait := by
  refine fun s k => ⟨s.keyDown_key k, fun hw => ⟨?_, ?_, fun r => ?_, State.keyDown_sameExcept_of_wait hw k⟩,
    fun hw => State.keyDown_sameExcept_of_not_wait hw k⟩
  · rw [State.keyDown_of_wait hw]
    rfl
  · rw [State.keyDown_of_wait hw]
    rfl
  · rw [State.keyDown_reg_of_wait hw, apply_ite BitVec.toNat, zextKey_toNat]

/-- Settles O44: the step leaves the machine waiting at the instruction, so the `KeyDown` finds the same word there. -/
theorem waitForKeyThenKeyDownLoadsTheCode : Obligations.WaitForKeyThenKeyDownLoadsTheCode := by
  intro s u x k hi h
  obtain ⟨hw, hpc, hfetch, hreg⟩ := step_ldKey hi h
  have hx : fieldX u.fetchWord = x := hfetch ▸ fieldX_of_executes_ldKey hi
  refine ⟨hw, hpc, ?_, fun r hr => ?_, ?_, ?_⟩
  · rw [State.keyDown_reg_of_wait hw, hx, if_pos rfl, zextKey_toNat]
  · rw [State.keyDown_reg_of_wait hw, hx, if_neg hr, hreg]
  · rw [State.keyDown_of_wait hw]
    rfl
  · rw [State.keyDown_of_wait hw, State.setPc_pc, hpc]

/-- Settles O45. -/
theorem onlyKeyDownOrResetEndsAWait : Obligations.OnlyKeyDownOrResetEndsAWait :=
  fun _ _ _ _ h hw hu => (transact_wait h hw).resolve_left (by simp [hu])

/-- Settles O46. -/
theorem keyUpClearsTheLatchOnly : Obligations.KeyUpClearsTheLatchOnly :=
  fun s k => ⟨s.keyUp_key k, s.setKey_sameExcept k false⟩

/-- Settles O47. -/
theorem timersAreReadAndLoaded : Obligations.TimersAreReadAndLoaded :=
  fun x s => ⟨⟨_, exec_ldFromDt x s, s.setReg_writesOnly x s.dt⟩, ⟨_, exec_ldDt x s, rfl, s.setDt_sameExcept _⟩,
    ⟨_, exec_ldSt x s, rfl, s.setSt_sameExcept _⟩⟩

/-- Settles O49: memory after reset lists nothing, so every byte is the font's or 0. -/
theorem resetMemoryHoldsTheFont : Obligations.ResetMemoryHoldsTheFont := by
  refine ⟨fun a h => ?_, fun a h80 h => ?_, rfl⟩
  · rw [reset_peek (by omega)]
    exact List.getD_eq_getElem _ _ h
  · rw [reset_peek h, List.getD_eq_default _ _ h80]

/-- Settles O50. -/
theorem resetStateHasTheResetValues : Obligations.ResetStateHasTheResetValues := by
  refine ⟨fun r => ?regs, rfl, rfl, rfl, rfl, rfl, rfl, fbCell_fbClear, fun k => ?keys, rfl⟩
  case regs => simp [State.reset, State.reg]
  case keys => simp [State.reset, State.key]

/-- Settles O51. -/
theorem resetTransactionResetsEverything : Obligations.ResetTransactionResetsEverything :=
  fun s => ⟨s.doReset, rfl, s.doReset_sameExcept, rfl, rfl⟩

/-- Settles O52: what each transaction may write, then what each answers. -/
theorem transactionsChangeOnlyWhatTheyMay : Obligations.TransactionsChangeOnlyWhatTheyMay := by
  refine ⟨transact_writes, fun s => rfl, fun bytes offset s => ?load, fun tick rnd s => ?step, fun k s => ?keyDown,
    fun k s => ?keyUp, fun s => ⟨s.fb, rfl, fun _ => rfl⟩⟩
  case load =>
    refine ⟨s.load bytes (loadOffset offset), ?_, fun a ha => s.load_peek_outside ha⟩
    simp only [transact, loadFits_iff]
  case step =>
    obtain ⟨u, hu⟩ := step_answers (s.supply tick rnd)
    exact ⟨rfl, rfl, s.supply_sameExcept tick rnd, u, hu, transact_step hu⟩
  case keyDown =>
    refine ⟨rfl, fun j hj => ?_, fun hw => State.keyDown_sameExcept_of_not_wait hw k⟩
    rw [State.keyDown_key, if_neg hj]
  case keyUp =>
    refine ⟨rfl, fun j hj => ?_⟩
    rw [State.keyUp_key, if_neg hj]

end Sys2Proof
end
